-- ==== Sys2Proof/Word.lean ====
section
/-! DEFINITION. The plain sizes of the MNC6408: words, lanes, addresses and the numbers of initiators, slots and entries. -/
namespace Sys2Proof

/-- A word of the variable memory: 32 bits, lane 0 least significant (00_scope 5.2). -/
abbrev Word := BitVec 32
/-- A byte of a link frame (R178). -/
abbrev Byte := BitVec 8
/-- The eight argument or data bytes of a frame, read as a number: byte k holds bits 8k+7..8k (R178). -/
abbrev Bytes8 := BitVec 64
/-- A word address, 0..67,108,863 (00_scope 5.2). -/
abbrev Addr := BitVec 26
/-- A lane set: bit k for lane k (00_scope 5.2, R25). -/
abbrev Lanes := BitVec 4
/-- An initiator number, 0..3 (00_scope 5.3). -/
abbrev Initiator := Fin 4
/-- A processor tag, 0..15 (00_scope 5.3). -/
abbrev ProcTag := Fin 16
/-- A transit slot number, 0..7, also the tag on the memory side (00_scope 5.3). -/
abbrev SlotNo := Fin 8
/-- An entry index, 0..63 (00_scope 5.3). -/
abbrev Index := Fin 64

end Sys2Proof
end

