-- ==== Sys2Proof/Syntax.lean ====
section
/-! DEFINITION. The commands of the MNC6408: one constructor per row of spec/opcode_table.json, in the table's order. -/
namespace Sys2Proof

/-- The status of an answer on either bus side (R33, R39). -/
inductive Answer where
  | okay
  | error
deriving DecidableEq, Repr

/-- One step of the part, or of the outside world at its pins.

The rows NOP to SOFT_RESET and BAD_COMMAND are frames of the management link: they carry the frame's selector and
argument (R178), which a command may ignore (R182). -/
inductive Instr where
  /-- A write is offered on the processor side (R25, R50). -/
  | writeArrival (ini : Initiator) (tag : ProcTag) (addr : Addr) (lanes : Lanes) (data : Word)
  /-- A read is offered on the processor side (R25, R138). -/
  | readArrival (ini : Initiator) (tag : ProcTag) (addr : Addr)
  /-- The oldest DECIDED slot is issued (R31). -/
  | slotIssue
  /-- Memory accepts the offered access (R32). -/
  | memoryAccept
  /-- A memory answer arrives (R33). -/
  | memoryAnswer (tag : SlotNo) (status : Answer) (data : Word)
  /-- The processor side takes the offered response (R39). -/
  | responseTaken
  /-- PRST_N is asserted (R24, R43). -/
  | processorSideReset
  /-- PRST_N is released (R27). -/
  | prstNRelease
  /-- PORST_N is asserted (R193). -/
  | powerOnReset
  /-- PORST_N is released (R120, R193). -/
  | porstNRelease
  /-- REFCLK runs for this many periods; each 4,096 make a tick (R120, R122). -/
  | tick (periods : Nat)
  /-- The arming window of an entry expires (R124). -/
  | armingExpiry (idx : Index)
  /-- The closed window of an entry ends (R126). -/
  | closedWindowEnd (idx : Index)
  /-- The open window of an entry expires (R129). -/
  | openWindowExpiry (idx : Index)
  /-- The stale period of an entry expires (R130). -/
  | stalePeriodExpiry (idx : Index)
  /-- CS_N falls (R177). -/
  | frameStart
  /-- CS_N rises on a frame of the wrong length or with a bad CRC (R179); `bits` are the frame's bits, first bit first,
  when the whole frame is carried by this step. -/
  | badFrame (bits : List Bool)
  /-- CS_N rises on a well-formed frame whose command code is not in the table (R181). -/
  | badCommand (code sel : Byte) (arg : Bytes8)
  | nop (sel : Byte) (arg : Bytes8)
  | identify (sel : Byte) (arg : Bytes8)
  | deviceStatus (sel : Byte) (arg : Bytes8)
  | setArmingWindow (sel : Byte) (arg : Bytes8)
  | setPoisonWord (sel : Byte) (arg : Bytes8)
  | setAlertEnable (sel : Byte) (arg : Bytes8)
  | draftClear (sel : Byte) (arg : Bytes8)
  | draftSet (sel : Byte) (arg : Bytes8)
  | draftOmit (sel : Byte) (arg : Bytes8)
  | install (sel : Byte) (arg : Bytes8)
  | retire (sel : Byte) (arg : Bytes8)
  | rearm (sel : Byte) (arg : Bytes8)
  | readEntry (sel : Byte) (arg : Bytes8)
  | start (sel : Byte) (arg : Bytes8)
  | stop (sel : Byte) (arg : Bytes8)
  | lockdown (sel : Byte) (arg : Bytes8)
  | releaseGroup (sel : Byte) (arg : Bytes8)
  | forceGroup (sel : Byte) (arg : Bytes8)
  | collect (sel : Byte) (arg : Bytes8)
  | collectEntry (sel : Byte) (arg : Bytes8)
  | collectedPart (sel : Byte) (arg : Bytes8)
  | softReset (sel : Byte) (arg : Bytes8)
  /-- SCK rises; `mosi` is the level of MOSI (R177). -/
  | sckRisingEdge (mosi : Bool)
  /-- SCK falls (R177). -/
  | sckFallingEdge
deriving DecidableEq, Repr

end Sys2Proof
end

