-- ==== Sys2Proof/Config.lean ====
section
/-! DEFINITION. What the part fixes for good, and the one value the manual leaves open. -/
namespace Sys2Proof

/-- REFCLK periods to one 1 ms tick (R120, R194). -/
def Config.refclkPerTick : Nat := 4096
/-- The device poison word after a power-on or soft reset (R142, R187). -/
def Config.defaultPoison : Word := 0xFFFFFFC0#32
/-- The default alert kinds, the nine faults and FAILED (R2, R184). -/
def Config.defaultAlertKinds : BitVec 16 := 0x81FF#16
/-- The draft default of the allowed classes, ZERO and NORMAL (R2, R184). -/
def Config.defaultClasses : BitVec 5 := 5#5
/-- The number of transit slots (00_scope 1.2, R27). -/
def Config.slotCount : Nat := 8
/-- The bits of a frame, 11 bytes (R178, R179). -/
def Config.frameBits : Nat := 88
/-- IDENTIFY's eight data bytes 4B 4F 08 64 01 40 08 00, byte 0 least significant (R183). -/
def Config.identity : Bytes8 := 0x0008400164084F4B#64

/-- A FREE VALUE (logs 11, 24): what MISO drives, after PORST_N's release and until CS_N rises, in a frame that began while
PORST_N was asserted and is ignored, and in one that was in progress when PORST_N fell and is abandoned. The manual says when MISO is high-impedance (R177, R192) and what it drives in a frame that is
taken (R177); for an ignored or abandoned frame it states no level. -/
opaque Config.ignoredFrameMiso : Nat → Bool

end Sys2Proof
end

