-- ==== Sys2Proof/WellFormed.lean ====
section
/-! DEFINITION. The checks on a command's operands that their types do not make. Every operand whose range is a type
(an address, an index, a lane set) is in range already; what is left are the rows that stand for only some frames. -/
namespace Sys2Proof

/-- The command codes of the command table (R182). -/
def commandCodes : List Byte :=
  [0x00#8, 0x01#8, 0x02#8, 0x03#8, 0x10#8, 0x11#8, 0x12#8, 0x13#8, 0x14#8, 0x15#8, 0x16#8,
   0x20#8, 0x21#8, 0x22#8, 0x23#8, 0x24#8, 0x30#8, 0x31#8, 0x32#8, 0x3F#8]

/-- A SET_DEVICE frame belongs to the row of setting `k` when its selector is `k`, or names no setting at all: such a
frame is BAD_FIELD in every device state (R187) and any of the three rows may carry it (log 9). -/
def setDeviceSelector (k sel : Byte) : Bool := sel == k || sel == 0#8 || decide (3 < sel.toNat)

/-- TICK: at most one tick to a step (log 5). SET_DEVICE rows: the selector of their setting, or of none.
BAD_COMMAND: a code that is not in the command table. Every other command is well formed for all operands. -/
def Instr.wellFormed : Instr → Bool
  | .tick periods => decide (periods ≤ Config.refclkPerTick)
  | .badCommand code _ _ => !commandCodes.contains code
  | .setArmingWindow sel _ => setDeviceSelector 1#8 sel
  | .setPoisonWord sel _ => setDeviceSelector 2#8 sel
  | .setAlertEnable sel _ => setDeviceSelector 3#8 sel
  | .writeArrival _ _ _ _ _ | .readArrival _ _ _ | .slotIssue | .memoryAccept | .memoryAnswer _ _ _ | .responseTaken
  | .processorSideReset | .prstNRelease | .powerOnReset | .porstNRelease | .armingExpiry _ | .closedWindowEnd _
  | .openWindowExpiry _ | .stalePeriodExpiry _ | .frameStart | .badFrame _ | .nop _ _ | .identify _ _
  | .deviceStatus _ _ | .draftClear _ _ | .draftSet _ _ | .draftOmit _ _ | .install _ _ | .retire _ _ | .rearm _ _
  | .readEntry _ _ | .start _ _ | .stop _ _ | .lockdown _ _ | .releaseGroup _ _ | .forceGroup _ _ | .collect _ _
  | .collectEntry _ _ | .collectedPart _ _ | .softReset _ _ | .sckRisingEdge _ | .sckFallingEdge => true

end Sys2Proof
end

