-- ==== Sys2Proof/Decode.lean ====
section
/-! DEFINITION. Words that spell commands. The rows of spec/opcode_table.json give no bits, so no word spells one. -/
namespace Sys2Proof

/-- The command a word spells by the table's bits: none, since every row's `fields` is empty. The bits of a link frame
are the link's own (R178) and are read by the machine (Machine/Frames.lean). -/
def decodeTableWord (_nbits _w : Nat) : Option Instr := none

end Sys2Proof
end

