-- ==== Sys2Proof/Machine/State.lean ====
section
/-! DEFINITION. The state of the MNC6408, block by block as 00_scope section 3 lists the blocks, and the state after reset. -/
namespace Sys2Proof.Machine

/-! ### The entry record (chapter 1) -/

/-- The state of an entry (R1, R8). -/
inductive EntryState where
  | empty | defined | armed | live | stale | failed
deriving DecidableEq, Repr

/-- The phase of a LIVE cycle (R8). -/
inductive Phase where
  | closed | opened
deriving DecidableEq, Repr

/-- The half of a REAL64 pair: LOW at base, HIGH at base+1 (R11, R106). -/
inductive Half where
  | low | high
deriving DecidableEq, Repr

/-- The format of an entry (R2, R72). -/
inductive Format where
  | unsigned | signed | real32 | real64 | sequence | flags
deriving DecidableEq, Repr

/-- The five classes of a real value (R77). -/
inductive RealClass where
  | zero | subnormal | normal | infinite | nan
deriving DecidableEq, Repr

/-- The alarm mode (R2, R98 to R100). -/
inductive AlarmMode where
  | level | edge | single
deriving DecidableEq, Repr

/-- The refresh period (R2). -/
inductive Period where
  | none | ms1 | ms2 | ms5 | ms10 | ms20 | ms50 | ms100 | ms200 | ms500 | ms1000
deriving DecidableEq, Repr

/-- The closed fraction: 0, 25, 50 or 75 percent (R2). -/
inductive ClosedFraction where
  | pct0 | pct25 | pct50 | pct75
deriving DecidableEq, Repr

/-- The arming field (R2). -/
inductive Arming where
  | timed | untimed
deriving DecidableEq, Repr

/-- The violation action (R2, R63). -/
inductive ViolationAction where
  | pass | hold | drop
deriving DecidableEq, Repr

/-- The read policy (R2, R139). -/
inductive ReadPolicy where
  | pass | poison | poisonError
deriving DecidableEq, Repr

/-- The reaction to a failure (R2, R155). -/
inductive Reaction where
  | note | groupA | groupB | groupAB | lockdown
deriving DecidableEq, Repr

/-- An optional limit: whether it is present, and its eight bytes (R4, R81). DRAFT_OMIT keeps the bytes (R185). -/
structure Limit where
  present : Bool
  bytes : Bytes8
deriving DecidableEq, Repr

/-- The static part of an entry, and the Draft Record: every field of R2. An installed limit is kept as the eight bytes
INSTALL read; the number they stand for is read by the entry's format (R4, R81; log 16). -/
structure Definition where
  base : Addr
  format : Format
  /-- The writer set: bit k for initiator k (R184). -/
  writers : BitVec 4
  hardLow : Limit
  hardHigh : Limit
  dwell : Nat
  warnLow : Limit
  warnHigh : Limit
  hysteresis : Bytes8
  alarmMode : AlarmMode
  /-- Bit 0 ZERO, 1 SUBNORMAL, 2 NORMAL, 3 INFINITE, 4 NAN (R184). -/
  classes : BitVec 5
  maxStep : Nat
  stickyMask : BitVec 32
  riseMask : BitVec 32
  fallMask : BitVec 32
  period : Period
  closedFraction : ClosedFraction
  arming : Arming
  violation : ViolationAction
  dropAnswer : Answer
  readPolicy : ReadPolicy
  threshold : Nat
  reaction : Reaction
  /-- A set of event kinds, as the event kind mask of R184. -/
  alertKinds : BitVec 16
deriving DecidableEq, Repr

/-- An absent limit of the draft defaults. The bytes under it are the model's choice, 0 (log 12). -/
def absentLimit : Limit := ⟨false, 0⟩

/-- The draft defaults of R2. -/
def draftDefaults : Definition where
  base := 0
  format := .unsigned
  writers := 15#4
  hardLow := absentLimit
  hardHigh := absentLimit
  dwell := 1
  warnLow := absentLimit
  warnHigh := absentLimit
  hysteresis := 0
  alarmMode := .edge
  classes := Config.defaultClasses
  maxStep := 1
  stickyMask := 0
  riseMask := 0
  fallMask := 0
  period := .none
  closedFraction := .pct0
  arming := .timed
  violation := .drop
  dropAnswer := .error
  readPolicy := .poison
  threshold := 3
  reaction := .groupA
  alertKinds := Config.defaultAlertKinds

/-- A value of an entry: one word, or the two words of a REAL64 pair, low half first (R10, R76). -/
inductive Value where
  | word (w : Word)
  | pair (lo hi : Word)
deriving DecidableEq, Repr

/-- A pending half (R11, R106). -/
structure PendingHalf where
  half : Half
  word : Word
  initiator : Initiator
deriving DecidableEq, Repr

/-- The warn condition (R12). -/
inductive WarnCondition where
  | inside | outside
deriving DecidableEq, Repr

/-- One entry record: the static part and the eight dynamic fields of R8. -/
structure Entry where
  defn : Definition
  state : EntryState
  phase : Phase
  faultCounter : Nat
  dwellCounter : Nat
  lastGood : Option Value
  pendingHalf : Option PendingHalf
  warn : WarnCondition
  singleFired : Bool
deriving DecidableEq, Repr

/-- An EMPTY entry: the draft defaults and the EMPTY values of R8 (R1, R23). -/
def emptyEntry : Entry := ⟨draftDefaults, .empty, .closed, 0, 0, none, none, .inside, false⟩

/-! ### The Window Timer (chapter 7) -/

/-- The window kind (R121). -/
inductive WindowKind where
  | stopped | arming | cycle | stalePeriod
deriving DecidableEq, Repr

/-- A window record (R121). -/
structure Window where
  kind : WindowKind
  count : Nat
deriving DecidableEq, Repr

/-- A STOPPED record with count 0 (R121, R122). -/
def stoppedWindow : Window := ⟨.stopped, 0⟩

/-- The Window Timer: the REFCLK divider (R120, log 5) and one window record for each entry (R121). -/
structure Timer where
  divider : Nat
  windows : Vector Window 64
deriving DecidableEq, Repr

/-! ### Escalation (chapter 9) -/

/-- The device state (R148). -/
inductive DeviceState where
  | configure | supervise | lockdown
deriving DecidableEq, Repr

/-- The lockdown reason (R148). -/
inductive LockdownReason where
  | none
  | entry (idx : Index)
  | monitor
deriving DecidableEq, Repr

/-- The state of a fail group (R148). -/
inductive GroupState where
  | clear | tripped | latched
deriving DecidableEq, Repr

/-- A fail group: its state and its failed-member set, one flag for each index (R148, R157). -/
structure Group where
  state : GroupState
  failed : Vector Bool 64
deriving DecidableEq, Repr

/-- The Escalation Unit's record (R148). -/
structure Escalation where
  device : DeviceState
  reason : LockdownReason
  groupA : Group
  groupB : Group
deriving DecidableEq, Repr

/-- A group after a power-on or soft reset (R148). -/
def resetGroup : Group := ⟨.latched, Vector.replicate 64 false⟩
/-- The Escalation Unit after a power-on or soft reset (R148). -/
def resetEscalation : Escalation := ⟨.configure, .none, resetGroup, resetGroup⟩

/-! ### The Event Latch block (chapter 10) -/

/-- A first capture, or a capture candidate (R68). -/
structure Capture where
  words : Value
  half : Option Half
  initiator : Initiator
  kinds : BitVec 16
  cls : Option RealClass
deriving DecidableEq, Repr

/-- The latch record of an entry (R166). -/
structure Latch where
  latched : BitVec 16
  capture : Option Capture
  rise : BitVec 32
  fall : BitVec 32
deriving DecidableEq, Repr

/-- A cleared latch record (R166). -/
def clearedLatch : Latch := ⟨0, none, 0, 0⟩

/-- The Event Latch block: the latch records and the Attention List, oldest first (R166, R168). -/
structure Events where
  latches : Vector Latch 64
  attention : List Index
deriving DecidableEq, Repr

/-- The Event Latch block after a power-on or soft reset (R176). -/
def resetEvents : Events := ⟨Vector.replicate 64 clearedLatch, []⟩

/-! ### The Transit Queue and the Memory-Side Interface (chapter 2) -/

/-- The kind of an access (R25). -/
inductive AccessKind where
  | read | write
deriving DecidableEq, Repr

/-- The disposition of a slot (R29). -/
inductive Disposition where
  | forward | substitute | pairWrite | held | dropped | poisoned
deriving DecidableEq, Repr

/-- The progress of a slot (R29). -/
inductive Progress where
  | decided | issued | done
deriving DecidableEq, Repr

/-- A slot's data: none (a read, or a HELD slot, R37), one word, or two words, low half then high half (R29). -/
inductive SlotData where
  | none
  | one (w : Word)
  | two (lo hi : Word)
deriving DecidableEq, Repr

/-- A slot record (R29). `awaited` is "answers awaited"; `status` and `answerData` are the answer's. -/
structure Slot where
  number : SlotNo
  initiator : Initiator
  tag : ProcTag
  kind : AccessKind
  addr : Addr
  lanes : Lanes
  data : SlotData
  disposition : Disposition
  entry : Option Index
  progress : Progress
  awaited : Nat
  status : Option Answer
  answerData : Option Word
  discard : Bool
deriving DecidableEq, Repr

/-- Transit Control: the slots in queue order, and whether the queue is draining (R29, R43, R44). -/
structure Transit where
  slots : List Slot
  draining : Bool
deriving DecidableEq, Repr

/-- What a memory access does (R32). -/
inductive AccessOp where
  | read
  | write (lanes : Lanes) (data : Word)
deriving DecidableEq, Repr

/-- A memory access as the memory side sees it (R32). -/
structure Access where
  tag : SlotNo
  addr : Addr
  op : AccessOp
deriving DecidableEq, Repr

/-- The Memory-Side Interface: the request stage, whose head is the access offered, and the slot numbers of the
accesses accepted and not yet answered, oldest first; their number is the outstanding count (R32, R33, log 14). -/
structure MemorySide where
  stage : List Access
  outstanding : List SlotNo
deriving DecidableEq, Repr

/-! ### The Management Link Controller (chapter 11) -/

/-- The status of a reply (R181). -/
inductive LinkStatus where
  | done | badFrame | badCommand | badField | badState | overlap | failPresent | emptyList
deriving DecidableEq, Repr

/-- A reply, less its CRC, which is computed from the rest (R178). -/
structure Reply where
  status : LinkStatus
  echo : Byte
  data : Bytes8
deriving DecidableEq, Repr

/-- The reply after a power-on or soft reset (R191, R192). -/
def resetReply : Reply := ⟨.done, 0, 0⟩

/-- The start cause (R183). -/
inductive StartCause where
  | power | soft
deriving DecidableEq, Repr

/-- The arming window setting (R123, R187). -/
inductive ArmingWindow where
  | ms100 | ms200 | ms500 | ms1000 | ms2000 | ms5000
deriving DecidableEq, Repr

/-- A collection record (R174). -/
structure CollectionRecord where
  index : Index
  latched : BitVec 16
  capture : Option Capture
  rise : BitVec 32
  fall : BitVec 32
  state : EntryState
  faultCounter : Nat
deriving DecidableEq, Repr

/-- The Management Link Controller (chapter 11's opening list, R177, R192). -/
structure Mlc where
  /-- The input shift register: the newest bit is bit 0; it takes no bit after the 88th (R177, R179, log 10). -/
  inReg : BitVec 88
  /-- The count of bits received in the current frame. -/
  bitCount : Nat
  /-- A frame is in progress and is being taken; false for a frame that is ignored (R192) and for one
  that a power-on reset abandoned (R192; log 24). -/
  frameOpen : Bool
  /-- The output shift register: MISO is its bit 87 (R177). -/
  outReg : BitVec 88
  reply : Reply
  draft : Definition
  buffer : Option CollectionRecord
  startCause : StartCause
  armingWindow : ArmingWindow
  poison : Word
  alertEnable : Bool
deriving DecidableEq, Repr

/-- The MLC after a power-on reset (R192). The shift registers and the bit count are the model's choice, 0 (log 2). -/
def powerOnMlc : Mlc where
  inReg := 0
  bitCount := 0
  frameOpen := false
  outReg := 0
  reply := resetReply
  draft := draftDefaults
  buffer := none
  startCause := .power
  armingWindow := .ms1000
  poison := Config.defaultPoison
  alertEnable := true

/-! ### Pins and the whole state -/

/-- A write request (R25). -/
structure WriteRequest where
  initiator : Initiator
  tag : ProcTag
  addr : Addr
  lanes : Lanes
  data : Word
deriving DecidableEq, Repr

/-- A read request (R25). -/
structure ReadRequest where
  initiator : Initiator
  tag : ProcTag
  addr : Addr
deriving DecidableEq, Repr

/-- The request held offered on the processor side (R25, R27). -/
inductive Offer where
  | write (r : WriteRequest)
  | read (r : ReadRequest)
deriving DecidableEq, Repr

/-- The levels of the input pins the part looks at (12.6), each true when asserted. -/
structure Pins where
  porst : Bool
  prst : Bool
  csLow : Bool
  offered : Option Offer
  /-- BCLK is stopped (R194). No row of the table stops or starts it (log 23). -/
  bclkStopped : Bool
deriving DecidableEq, Repr

/-- The state of the MNC6408 and its queue of waiting commands. -/
structure State where
  pins : Pins
  transit : Transit
  msi : MemorySide
  entries : Vector Entry 64
  timer : Timer
  esc : Escalation
  events : Events
  mlc : Mlc
  /-- The model's own: how often the free value of MISO has been renewed (log 11). -/
  freeCount : Nat
  /-- The commands waiting, first in first out. -/
  pending : List Instr
deriving DecidableEq, Repr

/-- No command of the MNC6408 stops the machine with a fault: every access and every frame has an answer (R37, R181). -/
inductive Fault where
deriving DecidableEq, Repr

/-- A command without a meaning. -/
inductive Refusal where
  /-- Raised by exec's arm of a command that is not modelled yet. Safe: the model stops where the part goes on. -/
  | notModelled (mnemonic : String)
deriving DecidableEq, Repr

/-- The machine right after a power-on reset, PORST_N released and PRST_N not asserted (R1, R23, R46, R136, R148, R176,
R192, R193; logs 1, 2, 11, 12, 23). -/
def State.reset : State where
  pins := ⟨false, false, false, none, false⟩
  transit := ⟨[], false⟩
  msi := ⟨[], []⟩
  entries := Vector.replicate 64 emptyEntry
  timer := ⟨0, Vector.replicate 64 stoppedWindow⟩
  esc := resetEscalation
  events := resetEvents
  mlc := powerOnMlc
  freeCount := 0
  pending := []

end Sys2Proof.Machine
end

