-- ==== Sys2Proof/Machine/Operands.lean ====
section
/-! DEFINITION. How the part reads values and fields: the formats' readings of words and limits (chapter 4), the codes of
the static and dynamic fields on the link (R184, R189), and the poison patterns (R143). -/
namespace Sys2Proof.Machine

/-! ### Numbers as they are compared (R73, R74, R80) -/

/-- A compared value or a limit: an exact number, an infinity, or no number at all. A finite real value is held as an
integer count of 2^-1074, the least magnitude of binary64, of which every binary32 and binary64 value is a whole
multiple; so every comparison, sum and difference is exact (R79, R80, R95; log 18). -/
inductive Num where
  | negInf
  | fin (n : Int)
  | posInf
  | nan
deriving DecidableEq, Repr

/-- `x` is below `y` (R80): a NaN is neither below nor above anything. -/
def Num.below : Num → Num → Bool
  | .nan, _ => false
  | _, .nan => false
  | .negInf, .negInf => false
  | .negInf, _ => true
  | .fin a, .fin b => decide (a < b)
  | .fin _, .posInf => true
  | .fin _, .negInf => false
  | .posInf, _ => false

/-- A number plus a finite amount: an infinity stays the same infinity (R95). -/
def Num.plus : Num → Int → Num
  | .fin a, h => .fin (a + h)
  | .negInf, _ => .negInf
  | .posInf, _ => .posInf
  | .nan, _ => .nan

/-! ### Real encodings (R75 to R77) -/

/-- The class of an encoding with exponent field `e` and fraction field `f`, `eMax` being the largest exponent (R77). -/
def classOf (eMax e f : Nat) : RealClass :=
  if e = 0 then (if f = 0 then .zero else .subnormal)
  else if e = eMax then (if f = 0 then .infinite else .nan)
  else .normal

/-- The magnitude in units of the format's least non-zero magnitude (R75, R76). -/
def magnitudeOf (fracBits e f : Nat) : Nat :=
  if e = 0 then f else (2 ^ fracBits + f) * 2 ^ (e - 1)

/-- The number an encoding stands for, from its sign, class and magnitude. -/
def numOf (negative : Bool) (cls : RealClass) (magnitude : Nat) : Num :=
  match cls with
  | .nan => .nan
  | .infinite => if negative then .negInf else .posInf
  | .zero | .subnormal | .normal => .fin (if negative then -(magnitude : Int) else magnitude)

/-- The exponent field of a binary32 word, bits 30..23 (R75). -/
def exponent32 (w : Word) : Nat := (w.extractLsb' 23 8).toNat
/-- The fraction field of a binary32 word, bits 22..0 (R75). -/
def fraction32 (w : Word) : Nat := (w.extractLsb' 0 23).toNat
/-- The class of a binary32 word (R77). -/
def class32 (w : Word) : RealClass := classOf 255 (exponent32 w) (fraction32 w)
/-- The binary64 value equal to a binary32 word (R79): 2^-149 is 2^925 units. -/
def num32 (w : Word) : Num :=
  numOf w.msb (class32 w) (magnitudeOf 23 (exponent32 w) (fraction32 w) * 2 ^ 925)

/-- The exponent field of a binary64 encoding, bits 62..52 (R76). -/
def exponent64 (x : Bytes8) : Nat := (x.extractLsb' 52 11).toNat
/-- The fraction field of a binary64 encoding, bits 51..0 (R76). -/
def fraction64 (x : Bytes8) : Nat := (x.extractLsb' 0 52).toNat
/-- The class of a binary64 encoding (R77). -/
def class64 (x : Bytes8) : RealClass := classOf 2047 (exponent64 x) (fraction64 x)
/-- The number a binary64 encoding stands for (R76). -/
def num64 (x : Bytes8) : Num :=
  numOf x.msb (class64 x) (magnitudeOf 52 (exponent64 x) (fraction64 x))

/-- The word of a value that a one-word format reads; of a pair, its low half. -/
def Value.lowWord : Value → Word
  | .word w => w
  | .pair lo _ => lo
/-- The high half of a pair; 0 for one word (READ_ENTRY part 11, COLLECTED_PART part 1). -/
def Value.highWord : Value → Word
  | .word _ => 0
  | .pair _ hi => hi
/-- The binary64 encoding of a pair: low half bits 31..0, high half bits 63..32 (R76). -/
def Value.encoding64 (v : Value) : Bytes8 := v.highWord ++ v.lowWord
/-- The word of a value that belongs to a half. -/
def Value.halfWord (v : Value) : Half → Word
  | .low => v.lowWord
  | .high => v.highWord

/-! ### Formats (R72) -/

/-- The numeric formats, those with a hard band (R72). -/
def Format.numeric : Format → Bool
  | .unsigned | .signed | .real32 | .real64 => true
  | .sequence | .flags => false
/-- The real formats (R72). -/
def Format.real : Format → Bool
  | .real32 | .real64 => true
  | .unsigned | .signed | .sequence | .flags => false

/-- The compared value of a checked value (R73, R74, R79, R92). SEQUENCE and FLAGS compare nothing. -/
def readValue (f : Format) (v : Value) : Num :=
  match f with
  | .unsigned | .sequence | .flags => .fin v.lowWord.toNat
  | .signed => .fin v.lowWord.toInt
  | .real32 => num32 v.lowWord
  | .real64 => num64 v.encoding64

/-- The class of a checked value of a real format, from its own encoding (R77, R82). -/
def readClass (f : Format) (v : Value) : Option RealClass :=
  match f with
  | .real32 => some (class32 v.lowWord)
  | .real64 => some (class64 v.encoding64)
  | .unsigned | .signed | .sequence | .flags => none

/-- Eight limit bytes read by the format (R4, R81). SEQUENCE and FLAGS read none (R3). -/
def readLimit (f : Format) (b : Bytes8) : Num :=
  match f with
  | .unsigned | .signed | .sequence | .flags => .fin b.toInt
  | .real32 | .real64 => num64 b

/-- A limit as the checks see it: absent, or its number. -/
def Limit.number (f : Format) (l : Limit) : Option Num :=
  if l.present then some (readLimit f l.bytes) else none

/-- The hysteresis as an exact amount; negative zero counts as zero (R4, R81). INSTALL admits none that is not finite; the 0
for one is the model's choice (log 20). -/
def Definition.hysteresisAmount (d : Definition) : Int :=
  match readLimit d.format d.hysteresis with
  | .fin h => h
  | .negInf | .posInf | .nan => 0

/-! ### The consistency of a draft (R4, R14) -/

/-- The bytes are a valid limit for the format (R4). -/
def limitBytesValid (f : Format) (b : Bytes8) : Bool :=
  match f with
  | .unsigned => decide (0 ≤ b.toInt) && decide (b.toInt ≤ 4294967295)
  | .signed => decide (-2147483648 ≤ b.toInt) && decide (b.toInt ≤ 2147483647)
  | .real32 | .real64 => num64 b != .nan
  | .sequence | .flags => true

/-- A limit that is absent, or valid for the format (R14). -/
def Limit.valid (f : Format) (l : Limit) : Bool := !l.present || limitBytesValid f l.bytes

/-- The bytes are a valid hysteresis for the format: within 0..4,294,967,295, or finite and not negative (R4). -/
def hysteresisValid (f : Format) (b : Bytes8) : Bool :=
  match f with
  | .unsigned | .signed => decide (0 ≤ b.toInt) && decide (b.toInt ≤ 4294967295)
  | .real32 | .real64 =>
    match num64 b with
    | .fin h => decide (0 ≤ h)
    | .negInf | .posInf | .nan => false
  | .sequence | .flags => true

/-- When both limits are present, the low one is not above the high one (R14). -/
def orderedLimits (f : Format) (lo hi : Limit) : Bool :=
  match lo.number f, hi.number f with
  | some a, some b => !b.below a
  | none, _ => true
  | some _, none => true

/-- When both warn limits are present, twice the hysteresis is not more than their difference, exactly; a band with an
infinite side is wide enough (R14). -/
def hysteresisFits (d : Definition) : Bool :=
  match d.warnLow.number d.format, d.warnHigh.number d.format with
  | some (.fin a), some (.fin b) => decide (2 * d.hysteresisAmount ≤ b - a)
  | _, _ => true

/-- The draft is consistent (R14). -/
def Definition.consistent (d : Definition) : Bool :=
  (d.format != .real64 || !d.base.getLsbD 0) &&
  (!d.format.numeric ||
    (d.hardLow.valid d.format && d.hardHigh.valid d.format && d.warnLow.valid d.format && d.warnHigh.valid d.format &&
      hysteresisValid d.format d.hysteresis && orderedLimits d.format d.hardLow d.hardHigh &&
      orderedLimits d.format d.warnLow d.warnHigh && hysteresisFits d))

/-! ### Covered words (R5) -/

/-- The definition's covered words include the address (R5). -/
def Definition.covers (d : Definition) (a : Addr) : Bool :=
  a == d.base || (d.format == .real64 && a == d.base + 1)

/-- The two definitions cover a common word (R15). -/
def Definition.overlaps (d e : Definition) : Bool :=
  e.covers d.base || (d.format == .real64 && e.covers (d.base + 1))

/-- The half of a covered word: LOW at base, HIGH at base+1 (R6, R107). -/
def Definition.halfOf (d : Definition) (a : Addr) : Half := if a == d.base then .low else .high

/-! ### Times (R123, R125) -/

/-- A refresh period in ms; none for NONE (R2). -/
def Period.ms : Period → Option Nat
  | .none => Option.none
  | .ms1 => some 1
  | .ms2 => some 2
  | .ms5 => some 5
  | .ms10 => some 10
  | .ms20 => some 20
  | .ms50 => some 50
  | .ms100 => some 100
  | .ms200 => some 200
  | .ms500 => some 500
  | .ms1000 => some 1000

/-- The closed fraction in quarters (R2). -/
def ClosedFraction.quarters : ClosedFraction → Nat
  | .pct0 => 0
  | .pct25 => 1
  | .pct50 => 2
  | .pct75 => 3

/-- P, the refresh period in ms; 0 for NONE, where no rule reads it. -/
def Definition.periodMs (d : Definition) : Nat := d.period.ms.getD 0
/-- The refresh period is not NONE. -/
def Definition.hasPeriod (d : Definition) : Bool := d.period != .none
/-- C, the length of the closed window: P times the closed fraction, rounded down to whole ms (R125). -/
def Definition.closedMs (d : Definition) : Nat := d.periodMs * d.closedFraction.quarters / 4

/-- The arming window length in ms (R123). -/
def ArmingWindow.ms : ArmingWindow → Nat
  | .ms100 => 100
  | .ms200 => 200
  | .ms500 => 500
  | .ms1000 => 1000
  | .ms2000 => 2000
  | .ms5000 => 5000

/-! ### Poison patterns (R143, R144) -/

/-- The poison pattern of entry `k` for a read of word `a` (R143, R144). -/
def poisonPattern (d : Definition) (k : Index) (poison : Word) (a : Addr) : Word :=
  match d.format with
  | .real32 => 0x7FC00000#32 + BitVec.ofNat 32 k.val
  | .real64 =>
    match d.halfOf a with
    | .low => BitVec.ofNat 32 k.val
    | .high => 0x7FF80000#32
  | .unsigned | .signed | .sequence | .flags => (poison &&& 0xFFFFFFC0#32) ||| BitVec.ofNat 32 k.val

/-! ### Codes on the link (R183, R184, R187, R189) -/

def Format.code : Format → Nat
  | .unsigned => 0 | .signed => 1 | .real32 => 2 | .real64 => 3 | .sequence => 4 | .flags => 5
def Format.ofCode : Nat → Option Format
  | 0 => some .unsigned | 1 => some .signed | 2 => some .real32 | 3 => some .real64 | 4 => some .sequence
  | 5 => some .flags | _ => none
def AlarmMode.code : AlarmMode → Nat
  | .level => 0 | .edge => 1 | .single => 2
def AlarmMode.ofCode : Nat → Option AlarmMode
  | 0 => some .level | 1 => some .edge | 2 => some .single | _ => none
def Period.code : Period → Nat
  | .none => 0 | .ms1 => 1 | .ms2 => 2 | .ms5 => 3 | .ms10 => 4 | .ms20 => 5 | .ms50 => 6 | .ms100 => 7
  | .ms200 => 8 | .ms500 => 9 | .ms1000 => 10
def Period.ofCode : Nat → Option Period
  | 0 => some .none | 1 => some .ms1 | 2 => some .ms2 | 3 => some .ms5 | 4 => some .ms10 | 5 => some .ms20
  | 6 => some .ms50 | 7 => some .ms100 | 8 => some .ms200 | 9 => some .ms500 | 10 => some .ms1000 | _ => Option.none
def ClosedFraction.ofCode : Nat → Option ClosedFraction
  | 0 => some .pct0 | 1 => some .pct25 | 2 => some .pct50 | 3 => some .pct75 | _ => none
def Arming.code : Arming → Nat
  | .timed => 0 | .untimed => 1
def Arming.ofCode : Nat → Option Arming
  | 0 => some .timed | 1 => some .untimed | _ => none
def ViolationAction.code : ViolationAction → Nat
  | .pass => 0 | .hold => 1 | .drop => 2
def ViolationAction.ofCode : Nat → Option ViolationAction
  | 0 => some .pass | 1 => some .hold | 2 => some .drop | _ => none
def answerCode : Answer → Nat
  | .okay => 0 | .error => 1
def answerOfCode : Nat → Option Answer
  | 0 => some .okay | 1 => some .error | _ => none
def ReadPolicy.code : ReadPolicy → Nat
  | .pass => 0 | .poison => 1 | .poisonError => 2
def ReadPolicy.ofCode : Nat → Option ReadPolicy
  | 0 => some .pass | 1 => some .poison | 2 => some .poisonError | _ => none
def Reaction.code : Reaction → Nat
  | .note => 0 | .groupA => 1 | .groupB => 2 | .groupAB => 3 | .lockdown => 4
def Reaction.ofCode : Nat → Option Reaction
  | 0 => some .note | 1 => some .groupA | 2 => some .groupB | 3 => some .groupAB | 4 => some .lockdown | _ => none
def ArmingWindow.code : ArmingWindow → Nat
  | .ms100 => 0 | .ms200 => 1 | .ms500 => 2 | .ms1000 => 3 | .ms2000 => 4 | .ms5000 => 5
def ArmingWindow.ofCode : Nat → Option ArmingWindow
  | 0 => some .ms100 | 1 => some .ms200 | 2 => some .ms500 | 3 => some .ms1000 | 4 => some .ms2000
  | 5 => some .ms5000 | _ => none
def EntryState.code : EntryState → Nat
  | .empty => 0 | .defined => 1 | .armed => 2 | .live => 3 | .stale => 4 | .failed => 5
def Phase.code : Phase → Nat
  | .closed => 0 | .opened => 1
def WarnCondition.code : WarnCondition → Nat
  | .inside => 0 | .outside => 1
def WindowKind.code : WindowKind → Nat
  | .stopped => 0 | .arming => 1 | .cycle => 2 | .stalePeriod => 3
def DeviceState.code : DeviceState → Nat
  | .configure => 0 | .supervise => 1 | .lockdown => 2
def LockdownReason.code : LockdownReason → Nat
  | .none => 0 | .entry _ => 1 | .monitor => 2
/-- The entry index for reason ENTRY, else 0 (R183). -/
def LockdownReason.indexCode : LockdownReason → Nat
  | .none => 0 | .entry k => k.val | .monitor => 0
def GroupState.code : GroupState → Nat
  | .clear => 0 | .tripped => 1 | .latched => 2
def StartCause.code : StartCause → Nat
  | .power => 0 | .soft => 1
def RealClass.code : RealClass → Nat
  | .zero => 0 | .subnormal => 1 | .normal => 2 | .infinite => 3 | .nan => 4
def Half.code : Half → Nat
  | .low => 1 | .high => 2
def boolCode (b : Bool) : Nat := if b then 1 else 0
/-- The status byte of a reply (R181). -/
def LinkStatus.code : LinkStatus → Byte
  | .done => 0x00#8 | .badFrame => 0x01#8 | .badCommand => 0x02#8 | .badField => 0x03#8 | .badState => 0x04#8
  | .overlap => 0x05#8 | .failPresent => 0x06#8 | .emptyList => 0x07#8

/-- The class is among the allowed classes (R82, R184). -/
def Definition.allowsClass (d : Definition) (c : RealClass) : Bool := d.classes.getLsbD c.code
/-- The initiator is in the writer set (R55, R184). -/
def Definition.allowsWriter (d : Definition) (n : Initiator) : Bool := d.writers.getLsbD n.val

/-- A number placed in a reply's data from byte `k` up (R178). -/
def dataAt (k n : Nat) : Bytes8 := BitVec.ofNat 64 n <<< (8 * k)

/-- The index a selector names; none above 63 (R182). -/
def indexOf (sel : Byte) : Option Index := if h : sel.toNat < 64 then some ⟨sel.toNat, h⟩ else none

/-! ### Draft fields (R184, R185) -/

/-- A limit set by DRAFT_SET: present, with the eight bytes as sent (R185). -/
def sentLimit (v : Bytes8) : Limit := ⟨true, v⟩

/-- DRAFT_SET of the field with this identifier; none where the identifier is not in the table of R184 or the value
lies outside the field's accepted range (R184, R185). -/
def Definition.setField (d : Definition) (field : Byte) (v : Bytes8) : Option Definition :=
  match field.toNat with
  | 0x01 => if v.toNat ≤ 67108863 then some { d with base := BitVec.ofNat 26 v.toNat } else none
  | 0x02 => (Format.ofCode v.toNat).map fun x => { d with format := x }
  | 0x03 => if 1 ≤ v.toNat ∧ v.toNat ≤ 15 then some { d with writers := BitVec.ofNat 4 v.toNat } else none
  | 0x04 => some { d with hardLow := sentLimit v }
  | 0x05 => some { d with hardHigh := sentLimit v }
  | 0x06 => some { d with warnLow := sentLimit v }
  | 0x07 => some { d with warnHigh := sentLimit v }
  | 0x08 => some { d with hysteresis := v }
  | 0x09 => if 1 ≤ v.toNat ∧ v.toNat ≤ 8 then some { d with dwell := v.toNat } else none
  | 0x0A => (AlarmMode.ofCode v.toNat).map fun x => { d with alarmMode := x }
  | 0x0B => if v.toNat ≤ 31 then some { d with classes := BitVec.ofNat 5 v.toNat } else none
  | 0x0C => if 1 ≤ v.toNat ∧ v.toNat ≤ 65535 then some { d with maxStep := v.toNat } else none
  | 0x0D => if v.toNat ≤ 4294967295 then some { d with stickyMask := BitVec.ofNat 32 v.toNat } else none
  | 0x0E => if v.toNat ≤ 4294967295 then some { d with riseMask := BitVec.ofNat 32 v.toNat } else none
  | 0x0F => if v.toNat ≤ 4294967295 then some { d with fallMask := BitVec.ofNat 32 v.toNat } else none
  | 0x10 => (Period.ofCode v.toNat).map fun x => { d with period := x }
  | 0x11 => (ClosedFraction.ofCode v.toNat).map fun x => { d with closedFraction := x }
  | 0x12 => (Arming.ofCode v.toNat).map fun x => { d with arming := x }
  | 0x13 => (ViolationAction.ofCode v.toNat).map fun x => { d with violation := x }
  | 0x14 => (answerOfCode v.toNat).map fun x => { d with dropAnswer := x }
  | 0x15 => (ReadPolicy.ofCode v.toNat).map fun x => { d with readPolicy := x }
  | 0x16 => if 1 ≤ v.toNat ∧ v.toNat ≤ 7 then some { d with threshold := v.toNat } else none
  | 0x17 => (Reaction.ofCode v.toNat).map fun x => { d with reaction := x }
  | 0x18 => if v.toNat ≤ 65535 then some { d with alertKinds := BitVec.ofNat 16 v.toNat } else none
  | _ => none

/-- A limit made absent; its bytes are kept (R185). -/
def Limit.omitted (l : Limit) : Limit := { l with present := false }

/-- DRAFT_OMIT of the field with this identifier; none for any but the four optional limits (R185). -/
def Definition.omitField (d : Definition) (field : Byte) : Option Definition :=
  match field.toNat with
  | 0x04 => some { d with hardLow := d.hardLow.omitted }
  | 0x05 => some { d with hardHigh := d.hardHigh.omitted }
  | 0x06 => some { d with warnLow := d.warnLow.omitted }
  | 0x07 => some { d with warnHigh := d.warnHigh.omitted }
  | _ => none

/-! ### What READ_ENTRY reports (R188, R189) -/

/-- The bytes of a limit as reported: eight zero bytes when it is absent (R188). -/
def Limit.reported (l : Limit) : Bytes8 := if l.present then l.bytes else 0

/-- The value presence byte of part 10 (R189). -/
def valuePresence (e : Entry) : Nat :=
  boolCode e.lastGood.isSome +
  match e.pendingHalf with
  | none => 0
  | some p => 2 + (match p.half with | .low => 0 | .high => 4) + 16 * p.initiator.val

/-- One part of an entry record and its window record (R188, R189); 0 for a part above 12, which is refused before. -/
def entryPart (e : Entry) (w : Window) (part : Nat) : Bytes8 :=
  let d := e.defn
  match part with
  | 0 => dataAt 0 d.base.toNat ||| dataAt 4 d.format.code ||| dataAt 5 d.writers.toNat ||| dataAt 6 d.threshold
      ||| dataAt 7 d.reaction.code
  | 1 => dataAt 0 d.period.code ||| dataAt 1 d.closedFraction.quarters ||| dataAt 2 d.arming.code
      ||| dataAt 3 d.violation.code ||| dataAt 4 (answerCode d.dropAnswer) ||| dataAt 5 d.readPolicy.code
      ||| dataAt 6 d.alarmMode.code ||| dataAt 7 d.dwell
  | 2 => dataAt 0 d.maxStep ||| dataAt 2 d.classes.toNat ||| dataAt 3 d.alertKinds.toNat
      ||| dataAt 5 (boolCode d.hardLow.present + 2 * boolCode d.hardHigh.present + 4 * boolCode d.warnLow.present
          + 8 * boolCode d.warnHigh.present)
  | 3 => d.hardLow.reported
  | 4 => d.hardHigh.reported
  | 5 => d.warnLow.reported
  | 6 => d.warnHigh.reported
  | 7 => d.hysteresis
  | 8 => dataAt 0 d.stickyMask.toNat ||| dataAt 4 d.riseMask.toNat
  | 9 => dataAt 0 d.fallMask.toNat
  | 10 => dataAt 0 e.state.code ||| dataAt 1 e.phase.code ||| dataAt 2 e.faultCounter ||| dataAt 3 e.dwellCounter
      ||| dataAt 4 e.warn.code ||| dataAt 5 (boolCode e.singleFired) ||| dataAt 6 w.kind.code
      ||| dataAt 7 (valuePresence e)
  | 11 =>
    match e.lastGood with
    | none => 0
    | some v => v.encoding64
  | 12 =>
    (match e.pendingHalf with
      | none => 0
      | some p => dataAt 0 p.word.toNat) ||| dataAt 4 w.count
  | _ => 0

/-! ### What COLLECT and COLLECTED_PART report (R190) -/

/-- The data of a DONE reply to COLLECT or COLLECT_ENTRY (R190). -/
def CollectionRecord.summary (r : CollectionRecord) : Bytes8 :=
  dataAt 0 r.index.val ||| dataAt 1 r.latched.toNat ||| dataAt 3 (boolCode r.capture.isSome) ||| dataAt 4 r.state.code
    ||| dataAt 5 r.faultCounter

/-- Part 1 of the Collection Buffer: the capture's words (R190). -/
def Capture.wordsData (c : Capture) : Bytes8 := c.words.encoding64

/-- Part 2 of the Collection Buffer: word count, half, initiator, fault kinds, class (R190). -/
def Capture.factsData (c : Capture) : Bytes8 :=
  dataAt 0 (match c.words with | .word _ => 1 | .pair _ _ => 2) |||
  dataAt 1 (match c.half with | none => 0 | some h => h.code) |||
  dataAt 2 c.initiator.val ||| dataAt 3 c.kinds.toNat |||
  dataAt 5 (match c.cls with | none => 0xFF | some k => k.code)

/-- One part of the Collection Buffer: zero data when it holds no record (R190). -/
def collectedPartData (buffer : Option CollectionRecord) (part : Nat) : Bytes8 :=
  match buffer with
  | none => 0
  | some r =>
    match part with
    | 0 => dataAt 0 1 ||| dataAt 1 r.index.val ||| dataAt 2 r.latched.toNat ||| dataAt 4 r.state.code
        ||| dataAt 5 r.faultCounter ||| dataAt 6 (boolCode r.capture.isSome)
    | 1 =>
      match r.capture with
      | none => 0
      | some c => c.wordsData
    | 2 =>
      match r.capture with
      | none => 0
      | some c => c.factsData
    | 3 => dataAt 0 r.rise.toNat ||| dataAt 4 r.fall.toNat
    | _ => 0

end Sys2Proof.Machine
end

