-- ==== Sys2Proof/Machine/Flags.lean ====
section
/-! DEFINITION. Event kinds and the checks that give them: class, hard band with dwell, step, sticky bits, edges and the
warning stage (chapters 4, 5 and R165). Every check reads an entry and a value and changes nothing (R92). -/
namespace Sys2Proof.Machine

/-- The 16 event kinds (R165). -/
inductive EventKind where
  | early | late | limit | classFault | foreign | torn | partialLanes | sequence | sticky
  | warn | warnBack | rise | fall | suspect | revived | failed
deriving DecidableEq, Repr

/-- The bit of a kind in the event kind mask (R184). -/
def EventKind.bitNumber : EventKind → Nat
  | .early => 0 | .late => 1 | .limit => 2 | .classFault => 3 | .foreign => 4 | .torn => 5 | .partialLanes => 6
  | .sequence => 7 | .sticky => 8 | .warn => 9 | .warnBack => 10 | .rise => 11 | .fall => 12 | .suspect => 13
  | .revived => 14 | .failed => 15

/-- The set holding one kind, as an event kind mask. -/
def kind (k : EventKind) : BitVec 16 := BitVec.ofNat 16 (2 ^ k.bitNumber)
/-- The set holding a kind when a condition holds, and nothing otherwise. -/
def kindIf (c : Bool) (k : EventKind) : BitVec 16 := if c then kind k else 0

/-! ### Class (R82) -/

/-- CLASS for a class outside the allowed classes; formats that are not real have none (R82). -/
def classFault (d : Definition) (cls : Option RealClass) : Bool :=
  match cls with
  | none => false
  | some c => !d.allowsClass c

/-! ### The hard band with dwell (R83, R84) -/

/-- A band outcome (R84). -/
inductive BandOutcome where
  | within | suspect | limit
deriving DecidableEq, Repr

/-- A value is outside a band: below a present low side or above a present high side (R83, R94). -/
def outsideBand (lo hi : Option Num) (x : Num) : Bool :=
  (match lo with | none => false | some l => x.below l) || (match hi with | none => false | some h => h.below x)

/-- The band outcome and the next dwell counter (R83, R84). -/
def bandCheck (d : Definition) (dwell : Nat) (x : Num) : BandOutcome × Nat :=
  if x == .nan then (.within, dwell)
  else if outsideBand (d.hardLow.number d.format) (d.hardHigh.number d.format) x then
    if dwell + 1 < d.dwell then (.suspect, dwell + 1) else (.limit, d.dwell)
  else (.within, 0)

/-! ### SEQUENCE and FLAGS (R87 to R90) -/

/-- SEQUENCE: the step from the last good value, modulo 2^32, is not in 1..maximum step (R87). -/
def sequenceFault (d : Definition) (lastGood : Option Value) (v : Value) : Bool :=
  match lastGood with
  | none => false
  | some g =>
    let step := (v.lowWord - g.lowWord).toNat
    step == 0 || decide (d.maxStep < step)

/-- STICKY: a bit of the sticky mask that is 1 in the last good value and 0 in the checked value (R89). -/
def stickyFault (d : Definition) (lastGood : Option Value) (v : Value) : Bool :=
  match lastGood with
  | none => false
  | some g => (d.stickyMask &&& g.lowWord &&& ~~~v.lowWord) != 0

/-- The rise set of a FLAGS write (R90). -/
def riseSet (d : Definition) (lastGood : Option Value) (v : Value) : BitVec 32 :=
  match lastGood with
  | none => 0
  | some g => d.riseMask &&& ~~~g.lowWord &&& v.lowWord

/-- The fall set of a FLAGS write (R90). -/
def fallSet (d : Definition) (lastGood : Option Value) (v : Value) : BitVec 32 :=
  match lastGood with
  | none => 0
  | some g => d.fallMask &&& g.lowWord &&& ~~~v.lowWord

/-! ### The warning stage (R94 to R100) -/

/-- A value is within the return band: the warn band narrowed on each present side by the hysteresis (R95). -/
def withinReturnBand (d : Definition) (x : Num) : Bool :=
  !outsideBand ((d.warnLow.number d.format).map fun l => l.plus d.hysteresisAmount)
    ((d.warnHigh.number d.format).map fun h => h.plus (-d.hysteresisAmount)) x

/-- The next warn condition of a value that is not a NaN (R96). -/
def nextWarn (d : Definition) (w : WarnCondition) (x : Num) : WarnCondition :=
  if outsideBand (d.warnLow.number d.format) (d.warnHigh.number d.format) x then .outside
  else match w with
    | .inside => .inside
    | .outside => if withinReturnBand d x then .inside else .outside

/-- What the warning stage returns (R60, R92). -/
structure WarnFinding where
  condition : WarnCondition
  fired : Bool
  notices : BitVec 16
deriving DecidableEq, Repr

/-- The warning stage: a NaN is passed by (R97); the condition moves as R96 gives; the alarm mode chooses the notice
(R98, R99, R100). -/
def warnStage (d : Definition) (w : WarnCondition) (fired : Bool) (x : Num) : WarnFinding :=
  if x == .nan then ⟨w, fired, 0⟩
  else
    let next := nextWarn d w x
    let out := outsideBand (d.warnLow.number d.format) (d.warnHigh.number d.format) x
    let crossingOut := w == .inside && next == .outside
    let crossingBack := w == .outside && next == .inside
    match d.alarmMode with
    | .level => ⟨next, fired, kindIf out .warn ||| kindIf crossingBack .warnBack⟩
    | .edge => ⟨next, fired, kindIf crossingOut .warn ||| kindIf crossingBack .warnBack⟩
    | .single => ⟨next, fired || crossingOut, kindIf (crossingOut && !fired) .warn⟩

/-! ### What the checks hand on (R92) -/

/-- The findings of the value checks and of the notice stage for one write (R92). -/
structure Findings where
  cls : Option RealClass
  faults : BitVec 16
  band : BandOutcome
  dwell : Nat
  warn : WarnCondition
  fired : Bool
  notices : BitVec 16
  rise : BitVec 32
  fall : BitVec 32
deriving DecidableEq, Repr

/-- A write that carries no checked value: every check passes it by (R54, R57, R60, R85). -/
def noFindings (e : Entry) : Findings := ⟨none, 0, .within, e.dwellCounter, e.warn, e.singleFired, 0, 0, 0⟩

/-- The findings of a numeric entry: class, band and warning (R59, R60, R82, R84, R96). -/
def numericFindings (e : Entry) (v : Value) : Findings :=
  let d := e.defn
  let x := readValue d.format v
  let cls := readClass d.format v
  let band := bandCheck d e.dwellCounter x
  let warn := warnStage d e.warn e.singleFired x
  { cls := cls
    faults := kindIf (classFault d cls) .classFault ||| kindIf (band.1 == .limit) .limit
    band := band.1
    dwell := band.2
    warn := warn.condition
    fired := warn.fired
    notices := warn.notices
    rise := 0
    fall := 0 }

/-- The findings of a SEQUENCE entry (R87). -/
def sequenceFindings (e : Entry) (v : Value) : Findings :=
  { noFindings e with faults := kindIf (sequenceFault e.defn e.lastGood v) .sequence }

/-- The findings of a FLAGS entry (R89, R90). -/
def flagsFindings (e : Entry) (v : Value) : Findings :=
  let up := riseSet e.defn e.lastGood v
  let down := fallSet e.defn e.lastGood v
  { noFindings e with
    faults := kindIf (stickyFault e.defn e.lastGood v) .sticky
    notices := kindIf (up != 0) .rise ||| kindIf (down != 0) .fall
    rise := up
    fall := down }

/-- The value checks and the notice stage, by the format of the entry (R59, R60, R72). -/
def findings (e : Entry) (checked : Option Value) : Findings :=
  match checked with
  | none => noFindings e
  | some v =>
    match e.defn.format with
    | .unsigned | .signed | .real32 | .real64 => numericFindings e v
    | .sequence => sequenceFindings e v
    | .flags => flagsFindings e v

end Sys2Proof.Machine
end

