-- ==== Sys2Proof/Machine/Ops.lean ====
section
/-! DEFINITION. The named operations over the state: reading and writing each table, latching, windows, slots, conversion,
failure and the entry into LOCKDOWN. Each says which rule it follows; the meanings of the commands call them. -/
namespace Sys2Proof.Machine

/-! ### Reading and writing the tables -/

/-- The indices 0..63 in order. -/
def indices : List Index := List.finRange 64

def State.entry (s : State) (k : Index) : Entry := s.entries[k]
def State.setEntry (s : State) (k : Index) (e : Entry) : State := { s with entries := s.entries.set k e }
/-- Every entry changed at once, each by its index. -/
def State.mapEntries (s : State) (f : Index → Entry → Entry) : State :=
  { s with entries := Vector.ofFn fun k : Index => f k (s.entry k) }

def State.window (s : State) (k : Index) : Window := s.timer.windows[k]
def State.setWindow (s : State) (k : Index) (w : Window) : State :=
  { s with timer := { s.timer with windows := s.timer.windows.set k w } }
/-- Every window record changed at once, each by its index. -/
def State.mapWindows (s : State) (f : Index → Window → Window) : State :=
  { s with timer := { s.timer with windows := Vector.ofFn fun k : Index => f k (s.window k) } }

def State.latch (s : State) (k : Index) : Latch := s.events.latches[k]
def State.setLatch (s : State) (k : Index) (l : Latch) : State :=
  { s with events := { s.events with latches := s.events.latches.set k l } }
def State.setAttention (s : State) (l : List Index) : State :=
  { s with events := { s.events with attention := l } }
def State.setSlots (s : State) (l : List Slot) : State := { s with transit := { s.transit with slots := l } }
def State.setEscalation (s : State) (x : Escalation) : State := { s with esc := x }
def State.setReply (s : State) (r : Reply) : State := { s with mlc := { s.mlc with reply := r } }
def State.setOffered (s : State) (o : Option Offer) : State := { s with pins := { s.pins with offered := o } }

/-! ### Address lookup (R6) -/

/-- The entry covers the address: it is not EMPTY and the address is one of its covered words (R5, R6). -/
def Entry.covers (e : Entry) (a : Addr) : Bool := e.state != .empty && e.defn.covers a

/-- The Address Match Unit: the index of the non-EMPTY entry that covers the address, if any (R6). R15 keeps the answer
unique; in a state that breaks R15 the lowest index answers. -/
def State.lookup (s : State) (a : Addr) : Option Index := indices.find? fun k => (s.entry k).covers a

/-! ### Output lines (R162, R171) -/

/-- ALERT_N is asserted, driven low (R171). -/
def State.alertAsserted (s : State) : Bool := s.mlc.alertEnable && !s.events.attention.isEmpty
/-- A fail line is asserted, driven low, while its group is TRIPPED or LATCHED (R162). -/
def Group.lineAsserted (g : Group) : Bool := g.state != .clear
/-- FAIL_A_N is asserted (R162). -/
def State.failAAsserted (s : State) : Bool := s.esc.groupA.lineAsserted
/-- FAIL_B_N is asserted (R162). -/
def State.failBAsserted (s : State) : Bool := s.esc.groupB.lineAsserted

/-! ### Event latching (R67, R68, R166 to R168) -/

/-- A latch record after an operation handed it kinds, edges and a capture candidate (R67, R68, R91, R166). -/
def Latch.add (l : Latch) (kinds : BitVec 16) (rise fall : BitVec 32) (capture : Option Capture) : Latch :=
  { latched := l.latched ||| kinds
    capture := l.capture.or capture
    rise := l.rise ||| rise
    fall := l.fall ||| fall }

/-- An entry joins the Attention List: its latched set comes to hold an alert kind and held none before (R168). -/
def joinsAttention (alert before after : BitVec 16) : Bool := (before &&& alert) == 0 && (after &&& alert) != 0

/-- One operation hands the Event Latch block a set of kinds for an entry, with edges and a capture candidate. -/
def latchEvents (k : Index) (kinds : BitVec 16) (rise fall : BitVec 32) (capture : Option Capture) (s : State) : State :=
  let l := s.latch k
  let l' := l.add kinds rise fall capture
  let t := s.setLatch k l'
  if joinsAttention (s.entry k).defn.alertKinds l.latched l'.latched then t.setAttention (s.events.attention ++ [k])
  else t

/-- The latch record of an entry is cleared and the entry leaves the Attention List (R166, R169). -/
def clearLatch (k : Index) (s : State) : State :=
  (s.setLatch k clearedLatch).setAttention (s.events.attention.filter (· != k))

/-! ### Windows (R122, R123, R125) -/

/-- The record of an entry's arming window at its start: the device setting as it stands when the entry is TIMED and
has a period, else STOPPED (R123). -/
def armingWindowFor (d : Definition) (setting : ArmingWindow) : Window :=
  if d.arming == .timed && d.hasPeriod then ⟨.arming, setting.ms⟩ else stoppedWindow

/-- The record at a cycle restart: CYCLE with a count of P (R125). -/
def cycleWindow (d : Definition) : Window := ⟨.cycle, d.periodMs⟩
/-- The phase at a cycle restart: CLOSED, or OPEN when no closed window runs (R125). -/
def restartPhase (d : Definition) : Phase := if d.closedMs = 0 then .opened else .closed
/-- The record of a stale period at its start (R129). -/
def staleWindow (d : Definition) : Window := ⟨.stalePeriod, d.periodMs⟩

/-! ### Slots and the request stage (R29, R31, R32) -/

/-- Slot `n` is taken. -/
def State.slotTaken (s : State) (n : SlotNo) : Bool := s.transit.slots.any fun x => x.number == n
/-- The free slot with the lowest number (R27); 0 when none is free, where nothing is placed. -/
def State.freeSlot (s : State) : SlotNo := ((List.finRange 8).find? fun n => !s.slotTaken n).getD 0

/-- The disposition needs memory (R29). -/
def Disposition.needsMemory : Disposition → Bool
  | .forward | .substitute | .pairWrite => true
  | .held | .dropped | .poisoned => false

/-- The base of the REAL64 pair that a slot's word belongs to: a REAL64 base is even (R14), so it is the word address
with its lowest bit cleared (R35, R36; log 13). -/
def pairBase (a : Addr) : Addr := a &&& ~~~1#26

/-- The memory accesses a slot issues, in the order they are offered (R32, R34, R35, R36). -/
def Slot.accesses (x : Slot) : List Access :=
  match x.data with
  | .none => [⟨x.number, x.addr, .read⟩]
  | .one w => [⟨x.number, x.addr, .write (if x.disposition == .forward then x.lanes else 15#4) w⟩]
  | .two lo hi =>
    [⟨x.number, pairBase x.addr, .write 15#4 lo⟩, ⟨x.number, pairBase x.addr + 1, .write 15#4 hi⟩]

/-- A slot handed to the request stage (R31). -/
def Slot.toIssued (x : Slot) : Slot := { x with progress := .issued, awaited := x.accesses.length }

/-- The oldest DECIDED slot of a queue becomes ISSUED (R31). -/
def issueFirst : List Slot → List Slot
  | [] => []
  | x :: rest => if x.progress == .decided then x.toIssued :: rest else x :: issueFirst rest

/-- The oldest DECIDED slot (R31). -/
def State.oldestDecided (s : State) : Option Slot := s.transit.slots.find? fun x => x.progress == .decided

/-- The oldest DECIDED slot is handed to the request stage (R31). -/
def issueOldest (s : State) : State :=
  match s.oldestDecided with
  | none => s
  | some x => { s with transit := { s.transit with slots := issueFirst s.transit.slots }
                       msi := { s.msi with stage := x.accesses } }

/-- A new slot joins the tail of the queue in the free slot with the lowest number (R27, R29). Its progress follows its
disposition: DECIDED when memory is needed, DONE otherwise (R29, R37). -/
def placeSlot (x : Slot) (s : State) : State :=
  s.setSlots (s.transit.slots ++
    [{ x with number := s.freeSlot, progress := if x.disposition.needsMemory then .decided else .done }])

/-- An access accepted in CONFIGURE: placed FORWARD and issued at its acceptance (R28). -/
def placeIssued (x : Slot) (s : State) : State := issueOldest (placeSlot x s)

/-- The record of an accepted access before its decision is filled in (R29). -/
def requestSlot (initiator : Initiator) (tag : ProcTag) (kind : AccessKind) (addr : Addr) (lanes : Lanes)
    (data : SlotData) : Slot :=
  { number := 0, initiator := initiator, tag := tag, kind := kind, addr := addr, lanes := lanes, data := data
    disposition := .forward, entry := none, progress := .decided, awaited := 0, status := none, answerData := none
    discard := false }

/-- The slot of a write with the request's own data, FORWARD (R34). -/
def writeSlot (r : WriteRequest) (entry : Option Index) : Slot :=
  { requestSlot r.initiator r.tag .write r.addr r.lanes (.one r.data) with entry := entry }

/-- The slot of a read, FORWARD (R34). A read reads all four lanes (R25). -/
def readSlot (r : ReadRequest) (entry : Option Index) : Slot :=
  { requestSlot r.initiator r.tag .read r.addr 15#4 .none with entry := entry }

/-- A write slot answered DROPPED with the drop answer of entry `k` (R37, R40, R41). -/
def Slot.toDropped (x : Slot) (k : Index) (d : Definition) : Slot :=
  { x with disposition := .dropped, entry := some k, progress := .done, awaited := 0, status := some d.dropAnswer
           answerData := none }

/-- A read slot answered POISONED with the pattern of entry `k` (R37, R40, R41, R141, R146). -/
def Slot.toPoisoned (x : Slot) (k : Index) (d : Definition) (poison : Word) (status : Answer) : Slot :=
  { x with disposition := .poisoned, entry := some k, progress := .done, awaited := 0, status := some status
           answerData := some (poisonPattern d k poison x.addr) }

/-! ### Conversion (R40, R41) -/

/-- The words at which a conversion finds a slot: its word address, and after it the words its accesses reach. R40 and R41
name the word address. A two-word slot writes both words of its pair, and R42 lets it write neither to a FAILED entry's
words nor to a supervised word in LOCKDOWN (log 22). -/
def Slot.words (x : Slot) : List Addr := x.addr :: x.accesses.map fun a => a.addr

/-- The conversion of one slot when entry `k` becomes FAILED (R40, R42, R146). -/
def convertForFailure (k : Index) (e : Entry) (poison : Word) (x : Slot) : Slot :=
  if x.progress == .decided && x.words.any e.covers then
    match x.kind, e.defn.readPolicy with
    | .write, _ => x.toDropped k e.defn
    | .read, .pass => x
    | .read, .poison => x.toPoisoned k e.defn poison .okay
    | .read, .poisonError => x.toPoisoned k e.defn poison .error
  else x

/-- The status of a read POISONED in LOCKDOWN (R41, R140). -/
def lockdownStatus (p : ReadPolicy) : Answer :=
  match p with
  | .pass | .poison => .okay
  | .poisonError => .error

/-- The conversion of one slot at the entry into LOCKDOWN (R41, R42, R146). The entry that covers the word address gives
the answer; where none does, the first one that covers a word the slot would reach (log 22). -/
def convertForLockdown (s : State) (x : Slot) : Slot :=
  if x.progress == .decided then
    match x.words.findSome? s.lookup with
    | none => x
    | some k =>
      let d := (s.entry k).defn
      match x.kind with
      | .write => x.toDropped k d
      | .read => x.toPoisoned k d s.mlc.poison (lockdownStatus d.readPolicy)
  else x

/-- The conversion of R40, asked for when entry `k` has become FAILED. -/
def failureConversion (k : Index) (s : State) : State :=
  s.setSlots (s.transit.slots.map (convertForFailure k (s.entry k) s.mlc.poison))

/-- The conversion of R41, asked for at the entry into LOCKDOWN. -/
def lockdownConversion (s : State) : State := s.setSlots (s.transit.slots.map (convertForLockdown s))

/-! ### Escalation (R151, R155 to R159) -/

/-- The reaction makes an entry a member of group A (R157). -/
def Reaction.inGroupA : Reaction → Bool
  | .groupA | .groupAB | .lockdown => true
  | .note | .groupB => false
/-- The reaction makes an entry a member of group B (R157). -/
def Reaction.inGroupB : Reaction → Bool
  | .groupB | .groupAB | .lockdown => true
  | .note | .groupA => false

/-- A failure notice naming a member of the group (R155, R158). -/
def Group.memberFailed (g : Group) (k : Index) : Group := ⟨.tripped, g.failed.set k true⟩
/-- The failed-member set is empty. -/
def noneFailed (f : Vector Bool 64) : Bool := indices.all fun k => !f[k]
/-- A REARM completion of a member: the index leaves the set, and a TRIPPED group with none left is LATCHED (R159). -/
def Group.memberRearmed (g : Group) (k : Index) : Group :=
  let f := g.failed.set k false
  ⟨if noneFailed f && g.state == .tripped then .latched else g.state, f⟩
/-- The group becomes TRIPPED, its failed-member set left as it stands (R151). -/
def Group.trip (g : Group) : Group := ⟨.tripped, g.failed⟩

/-- The reaction of a failed entry on the groups (R155). -/
def applyReaction (k : Index) (r : Reaction) (x : Escalation) : Escalation :=
  { x with groupA := if r.inGroupA then x.groupA.memberFailed k else x.groupA
           groupB := if r.inGroupB then x.groupB.memberFailed k else x.groupB }

/-- A REARM completion on the groups of which the entry is a member (R159). -/
def applyRearm (k : Index) (r : Reaction) (x : Escalation) : Escalation :=
  { x with groupA := if r.inGroupA then x.groupA.memberRearmed k else x.groupA
           groupB := if r.inGroupB then x.groupB.memberRearmed k else x.groupB }

/-- An entry without its pending half (R11). -/
def Entry.discardPending (e : Entry) : Entry := { e with pendingHalf := none }

/-- The Escalation Unit's record at the entry into LOCKDOWN (R151). -/
def Escalation.locked (x : Escalation) (reason : LockdownReason) : Escalation :=
  ⟨.lockdown, reason, x.groupA.trip, x.groupB.trip⟩

/-- The entry into LOCKDOWN: both groups TRIPPED, every pending half discarded silently, and the conversion of R41; the
window records are frozen because ticks do not move them in LOCKDOWN (R135, R151). -/
def enterLockdown (reason : LockdownReason) (s : State) : State :=
  lockdownConversion ((s.mapEntries fun _ e => e.discardPending).setEscalation (s.esc.locked reason))

/-- The Escalation Unit takes the failure of entry `k`: the reaction on the groups, the conversion of R40, and with
reaction LOCKDOWN the entry into LOCKDOWN after it (R152, R155, R156). -/
def takeFailure (k : Index) (s : State) : State :=
  let r := (s.entry k).defn.reaction
  let t := failureConversion k (s.setEscalation (applyReaction k r s.esc))
  if r == .lockdown then enterLockdown (.entry k) t else t

/-! ### Lateness (R115, R124, R129, R130, R132) -/

/-- The entry after a LATE: the fault counter one higher, any pending half discarded, and STALE, or FAILED at the
threshold (R115, R124, R129, R130, R132). -/
def Entry.late (e : Entry) : Entry :=
  { e with faultCounter := e.faultCounter + 1
           pendingHalf := none
           state := if e.faultCounter + 1 = e.defn.threshold then .failed else .stale }

/-- The kinds a LATE latches: LATE, TORN when a pending half was discarded, FAILED at the threshold (R115, R132). -/
def lateKinds (e : Entry) : BitVec 16 :=
  kind .late ||| kindIf e.pendingHalf.isSome .torn ||| kindIf (decide (e.faultCounter + 1 = e.defn.threshold)) .failed

/-- An expiry that brings LATE to entry `k` (R124, R129, R130, R132): a stale period follows, or the record is STOPPED
and the Escalation Unit takes the failure. -/
def lateExpiry (k : Index) (s : State) : State :=
  let e := s.entry k
  let fails := decide (e.faultCounter + 1 = e.defn.threshold)
  let t := (s.setEntry k e.late).setWindow k (if fails then stoppedWindow else staleWindow e.defn)
  let u := latchEvents k (lateKinds e) 0 0 none t
  if fails then takeFailure k u else u

/-! ### Resets (R23, R148, R176, R192, R193) -/

/-- Every block at its power-on values; the pins stay as the outside drives them (R46, R136, R192, R193). -/
def powerOnValues (s : State) : State :=
  { State.reset with pins := s.pins, freeCount := s.freeCount, pending := s.pending }

/-! ### Events that do not come -/

/-- BCLK runs, and with it both bus sides (R194; log 23). -/
def State.busRuns (s : State) : Bool := !s.pins.bclkStopped

/-- An event whose condition does not hold does not come: nothing changes (log 4). -/
def onlyIf (c : Bool) (f : State → State) (s : State) : State := if c then f s else s

/-- The outcome type of every meaning. -/
abbrev Result := Host.Outcome State Fault Refusal

end Sys2Proof.Machine
end

