-- ==== Sys2Proof/Machine/Inspection.lean ====
section
/-! DEFINITION. The inspection of a write (chapter 3) with the pairing stage (chapter 6): one inspection result, formed
from the entry record and the request alone, and its application (R50). -/
namespace Sys2Proof.Machine

/-- The classification of an inspected write (R50, R61). -/
inductive Classification where
  | droppedFailed | held | faulted | suspect | clean
deriving DecidableEq, Repr

/-- What the pairing stage returns (R57, R107). `notReached` is a write that does not reach it: an entry that is not
REAL64, or a PARTIAL or FOREIGN write (R54, R55, R113). -/
inductive Pairing where
  | notReached
  /-- FIRST or REPLACE: the pending half the entry holds afterwards. -/
  | held (p : PendingHalf)
  /-- COMPLETE: the combined pair. -/
  | complete (lo hi : Word)
  | tornSame
  /-- TORN_OTHER: the discarded pending word and this write's word, each in its own half. -/
  | tornOther (lo hi : Word)
deriving DecidableEq, Repr

/-- The write's lane set is not all four lanes (R54). -/
def WriteRequest.isPartial (r : WriteRequest) : Bool := r.lanes != 15#4
/-- The write's initiator is not in the writer set (R55). -/
def Definition.isForeign (d : Definition) (r : WriteRequest) : Bool := !d.allowsWriter r.initiator

/-- Two words put in order, low half first, `w` being the word of half `h` and `other` that of the other half (R76). -/
def inOrder (h : Half) (w other : Word) : Word × Word :=
  match h with
  | .low => (w, other)
  | .high => (other, w)

/-- The pairing stage (R107 to R112). -/
def pairingStage (e : Entry) (r : WriteRequest) : Pairing :=
  if e.defn.format == .real64 && !r.isPartial && !e.defn.isForeign r then
    let h := e.defn.halfOf r.addr
    match e.pendingHalf with
    | none => .held ⟨h, r.data, r.initiator⟩
    | some p =>
      let w := inOrder h r.data p.word
      if p.half == h then
        if p.initiator == r.initiator then .held ⟨p.half, r.data, p.initiator⟩ else .tornSame
      else
        if p.initiator == r.initiator then .complete w.1 w.2 else .tornOther w.1 w.2
  else .notReached

/-- The pairing holds a TORN fault (R111, R112). -/
def Pairing.isTorn : Pairing → Bool
  | .tornSame | .tornOther _ _ => true
  | .notReached | .held _ | .complete _ _ => false

/-- The pending half after a write that did not end as HELD: kept when the pairing stage was not reached, used up or
discarded otherwise (R57, R113). -/
def Pairing.pendingAfter (p : Pairing) (before : Option PendingHalf) : Option PendingHalf :=
  match p with
  | .notReached => before
  | .held q => some q
  | .complete _ _ | .tornSame | .tornOther _ _ => none

/-- The checked value of a write (R56). -/
def checkedValue (e : Entry) (r : WriteRequest) (p : Pairing) : Option Value :=
  match p with
  | .complete lo hi => some (.pair lo hi)
  | .notReached => if e.defn.format != .real64 && !r.isPartial then some (.word r.data) else none
  | .held _ | .tornSame | .tornOther _ _ => none

/-- The words as received, over the words acted on: both words of a pair that completed or tore across both halves, else
the request's word (R57, R63, R68). -/
def wordsReceived (r : WriteRequest) (p : Pairing) : Value :=
  match p with
  | .complete lo hi | .tornOther lo hi => .pair lo hi
  | .notReached | .held _ | .tornSame => .word r.data

/-- A write in LIVE with a refresh period and phase CLOSED is EARLY (R58). -/
def Entry.isEarly (e : Entry) : Bool := e.state == .live && e.defn.hasPeriod && e.phase == .closed

/-- A disposition with the words its slot will write (R63, R64, R65). -/
structure Placement where
  disposition : Disposition
  data : SlotData
deriving DecidableEq, Repr

/-- The words a slot writes for the words of a value. -/
def Value.slotData : Value → SlotData
  | .word w => .one w
  | .pair lo hi => .two lo hi

/-- A value sent to memory as received: FORWARD of one word, PAIR_WRITE of two (R63, R64, R65). -/
def sendAsReceived (v : Value) : Placement :=
  match v with
  | .word w => ⟨.forward, .one w⟩
  | .pair lo hi => ⟨.pairWrite, .two lo hi⟩

/-- DROPPED; the slot keeps the request's word as carried (R37; log 19). -/
def dropIt (r : WriteRequest) : Placement := ⟨.dropped, .one r.data⟩

/-- HOLD with a last good value: its word, the half of it that belongs to the request's word, or both words (R35, R63). -/
def substitute (e : Entry) (r : WriteRequest) (words good : Value) : Placement :=
  match words with
  | .pair _ _ => ⟨.substitute, .two good.lowWord good.highWord⟩
  | .word _ =>
    ⟨.substitute, .one (if e.defn.format == .real64 then good.halfWord (e.defn.halfOf r.addr) else good.lowWord)⟩

/-- The disposition of a faulted write (R63). -/
def faultedPlacement (e : Entry) (r : WriteRequest) (words : Value) : Placement :=
  match e.defn.violation, e.lastGood with
  | .pass, _ => sendAsReceived words
  | .hold, some good => substitute e r words good
  | .hold, none => dropIt r
  | .drop, _ => dropIt r

/-- The inspection result (R50). `next` holds the entry parts: the entry as the write leaves it, but for the phase that a
cycle restart sets (R125). -/
structure Inspection where
  classification : Classification
  faults : BitVec 16
  notices : BitVec 16
  /-- A pending half was discarded by the failure: TORN is latched and is no fault of the write (R66, R116). -/
  tornAtFailure : Bool
  next : Entry
  /-- The timing action is to restart the cycle (R58, R64, R65). -/
  restart : Bool
  /-- The write brings the entry to FAILED (R66). -/
  fails : Bool
  rise : BitVec 32
  fall : BitVec 32
  capture : Option Capture
  placement : Placement
deriving DecidableEq, Repr

/-- A write to a FAILED entry (R53). -/
def droppedFailed (e : Entry) (r : WriteRequest) : Inspection :=
  ⟨.droppedFailed, 0, 0, false, e, false, false, 0, 0, none, dropIt r⟩

/-- A first half kept in the entry (R57, R108, R109). A HELD slot keeps no data of its own (R37). -/
def heldWrite (e : Entry) (p : PendingHalf) : Inspection :=
  ⟨.held, 0, 0, false, { e with pendingHalf := some p }, false, false, 0, 0, none, ⟨.held, .none⟩⟩

/-- The fault kinds of a write that went on to the end of its stages (R54, R55, R57, R58, R59). -/
def writeFaults (e : Entry) (r : WriteRequest) (p : Pairing) (f : Findings) : BitVec 16 :=
  kindIf r.isPartial .partialLanes ||| kindIf (e.defn.isForeign r) .foreign ||| kindIf p.isTorn .torn |||
    kindIf e.isEarly .early ||| f.faults

/-- The capture candidate of a faulted write (R68). -/
def captureOf (e : Entry) (r : WriteRequest) (words : Value) (faults : BitVec 16) (cls : Option RealClass) : Capture :=
  { words := words
    half := match words with
      | .pair _ _ => none
      | .word _ => if e.defn.format == .real64 then some (e.defn.halfOf r.addr) else none
    initiator := r.initiator
    kinds := faults
    cls := if (faults &&& kind .classFault) != 0 then cls else none }

/-- The dynamic fields that the value moves, whatever the classification (R62, R64, R65). -/
def Entry.withFindings (e : Entry) (f : Findings) (pendingHalf : Option PendingHalf) : Entry :=
  { e with dwellCounter := f.dwell, warn := f.warn, singleFired := f.fired, pendingHalf := pendingHalf }

/-- A faulted write (R62, R63, R66, R68). -/
def faultedWrite (e : Entry) (r : WriteRequest) (p : Pairing) (f : Findings) (faults : BitVec 16) : Inspection :=
  let fails := decide (e.faultCounter + 1 = e.defn.threshold)
  let pendingHalf := p.pendingAfter e.pendingHalf
  let words := wordsReceived r p
  { classification := .faulted
    faults := faults
    notices := f.notices ||| kindIf fails .failed
    tornAtFailure := fails && pendingHalf.isSome
    next := { e.withFindings f (if fails then none else pendingHalf) with
              faultCounter := e.faultCounter + 1
              state := if fails then .failed else e.state }
    restart := e.isEarly && !fails
    fails := fails
    rise := f.rise
    fall := f.fall
    capture := some (captureOf e r words faults f.cls)
    placement := faultedPlacement e r words }

/-- A suspect write (R64). -/
def suspectWrite (e : Entry) (r : WriteRequest) (p : Pairing) (f : Findings) : Inspection :=
  { classification := .suspect
    faults := 0
    notices := f.notices ||| kind .suspect
    tornAtFailure := false
    next := e.withFindings f (p.pendingAfter e.pendingHalf)
    restart := e.state == .live && e.phase == .opened && e.defn.hasPeriod
    fails := false
    rise := f.rise
    fall := f.fall
    capture := none
    placement := sendAsReceived (wordsReceived r p) }

/-- A clean write (R65, R131). `v` is the checked value. -/
def cleanWrite (e : Entry) (r : WriteRequest) (p : Pairing) (f : Findings) (v : Value) : Inspection :=
  { classification := .clean
    faults := 0
    notices := f.notices ||| kindIf (e.state == .stale) .revived
    tornAtFailure := false
    next := { e.withFindings f (p.pendingAfter e.pendingHalf) with
              state := .live, faultCounter := 0, dwellCounter := 0, lastGood := some v }
    restart := e.defn.hasPeriod
    fails := false
    rise := f.rise
    fall := f.fall
    capture := none
    placement := sendAsReceived (wordsReceived r p) }

/-- The stages after pairing, and the classification (R58 to R61). -/
def judge (e : Entry) (r : WriteRequest) (p : Pairing) : Inspection :=
  let checked := checkedValue e r p
  let f := findings e checked
  let faults := writeFaults e r p f
  if faults != 0 then faultedWrite e r p f faults
  else if f.band == .suspect then suspectWrite e r p f
  else cleanWrite e r p f (checked.getD (.word r.data))

/-- The inspection of a write (R52): the FAILED drop, then the pairing hand-off, then the other stages. -/
def inspect (e : Entry) (r : WriteRequest) : Inspection :=
  if e.state == .failed then droppedFailed e r
  else match pairingStage e r with
    | .held p => heldWrite e p
    | p => judge e r p

/-- The slot of an inspected write (R29, R35, R36, R37). -/
def inspectedSlot (k : Index) (d : Definition) (r : WriteRequest) (x : Inspection) : Slot :=
  { writeSlot r (some k) with
    data := x.placement.data
    disposition := x.placement.disposition
    status := match x.placement.disposition with
      | .held => some .okay
      | .dropped => some d.dropAnswer
      | .forward | .substitute | .pairWrite | .poisoned => none }

/-- The entry and the window record after the result's timing action (R58, R66, R125): the cycle restarts with its phase,
or the window stops because the entry failed. -/
def applyTiming (k : Index) (x : Inspection) (s : State) : State :=
  if x.fails then (s.setEntry k x.next).setWindow k stoppedWindow
  else if x.restart then
    (s.setEntry k { x.next with phase := restartPhase x.next.defn }).setWindow k (cycleWindow x.next.defn)
  else s.setEntry k x.next

/-- An inspection result applied whole (R50): the entry parts, the slot, the latches, and then the failure, whose
conversion reaches the slot just placed (R63, R66). -/
def applyInspection (k : Index) (r : WriteRequest) (x : Inspection) (s : State) : State :=
  let t := placeSlot (inspectedSlot k x.next.defn r x) (applyTiming k x s)
  let u := latchEvents k (x.faults ||| x.notices ||| kindIf x.tornAtFailure .torn) x.rise x.fall x.capture t
  if x.fails then takeFailure k u else u

end Sys2Proof.Machine
end

