-- ==== Sys2Proof/Machine/Arrivals.lean ====
section
/-! DEFINITION. WRITE_ARRIVAL and READ_ARRIVAL: the acceptance of an offered request (R25 to R28), its lookup, and the
inspection of a write (chapter 3) or the decision for a read (chapter 8). -/
namespace Sys2Proof.Machine

/-- Transit Control can accept an offered request (R27, R28, R193). While BCLK is stopped none is accepted (R194). -/
def State.canAccept (s : State) : Bool :=
  decide (s.transit.slots.length < Config.slotCount) && !s.transit.draining && !s.pins.prst && !s.pins.porst &&
    s.busRuns && (s.esc.device != .configure || (s.oldestDecided.isNone && s.msi.stage.isEmpty))

/-- The state is one in which a write to the entry is inspected: ARMED, LIVE, STALE or FAILED (R47). -/
def EntryState.supervised : EntryState → Bool
  | .armed | .live | .stale | .failed => true
  | .empty | .defined => false

/-- An accepted write (R47 to R50): in CONFIGURE FORWARD and issued at once (R28, R48); in LOCKDOWN DROPPED at a covered
word (R49); in SUPERVISE inspected (R47); FORWARD where no entry covers the word (R6). -/
def acceptWrite (r : WriteRequest) (s : State) : State :=
  let hit := s.lookup r.addr
  match s.esc.device, hit with
  | .configure, _ => placeIssued (writeSlot r hit) s
  | _, none => placeSlot (writeSlot r none) s
  | .lockdown, some k => placeSlot ((writeSlot r hit).toDropped k (s.entry k).defn) s
  | .supervise, some k =>
    let e := s.entry k
    if e.state.supervised then applyInspection k r (inspect e r) s else placeSlot (writeSlot r hit) s

/-- The read decision for a covered word: none is FORWARD, a status is POISONED with it (R139, R140). -/
def readDecision (d : DeviceState) (e : Entry) : Option Answer :=
  match d with
  | .configure => none
  | .lockdown => some (lockdownStatus e.defn.readPolicy)
  | .supervise =>
    match e.state, e.defn.readPolicy with
    | .stale, .poison | .failed, .poison => some .okay
    | .stale, .poisonError | .failed, .poisonError => some .error
    | _, _ => none

/-- An accepted read (R138 to R141). -/
def acceptRead (r : ReadRequest) (s : State) : State :=
  let hit := s.lookup r.addr
  match s.esc.device, hit with
  | .configure, _ => placeIssued (readSlot r hit) s
  | _, none => placeSlot (readSlot r none) s
  | d, some k =>
    let e := s.entry k
    match readDecision d e with
    | none => placeSlot (readSlot r hit) s
    | some st => placeSlot ((readSlot r hit).toPoisoned k e.defn s.mlc.poison st) s

/-- An accepted request leaves the processor side's offer. -/
def acceptOffer (o : Offer) (s : State) : State :=
  match o with
  | .write r => acceptWrite r (s.setOffered none)
  | .read r => acceptRead r (s.setOffered none)

/-- A request is offered with no other held: accepted when the conditions of R27 and R28 hold, and else held offered
(R25, R27). -/
def acceptOrHold (o : Offer) (s : State) : State := if s.canAccept then acceptOffer o s else s.setOffered (some o)

/-- A request is offered (R25, R27). The request group carries one request at a time, so while another is held and cannot
be accepted this one does not come; once the held one can be accepted, it is accepted first (log 3). -/
def offer (o : Offer) (s : State) : State :=
  match s.pins.offered with
  | none => acceptOrHold o s
  | some held =>
    if held = o then acceptOrHold o s
    else if s.canAccept then acceptOrHold o (acceptOffer held s)
    else s

/-- WRITE_ARRIVAL (R25, R27, R50). -/
def execWriteArrival (ini : Initiator) (tag : ProcTag) (addr : Addr) (lanes : Lanes) (data : Word) (s : State) : Result :=
  .next (offer (.write ⟨ini, tag, addr, lanes, data⟩) s)

/-- READ_ARRIVAL (R25, R27, R138). -/
def execReadArrival (ini : Initiator) (tag : ProcTag) (addr : Addr) (s : State) : Result :=
  .next (offer (.read ⟨ini, tag, addr⟩) s)

/-- What the part does when no command waits: it accepts the request held offered, if any, once it can (R27, log 3);
otherwise it idles. -/
def acceptHeldOffer (s : State) : State :=
  match s.pins.offered with
  | none => s
  | some o => acceptOrHold o s

end Sys2Proof.Machine
end

