-- ==== Sys2Proof/Machine/Frames.lean ====
section
/-! DEFINITION. The frames of the management link (R177 to R182): the CRC, the shift registers, the checks at CS_N rising,
the replies and the order of the status checks. -/
namespace Sys2Proof.Machine

/-! ### Bits, bytes and the CRC (R178) -/

/-- The bits of a word, most significant first: the order in which they travel (R177). -/
def bitsOf {n : Nat} (w : BitVec n) : List Bool := (List.range n).map fun k => w.getMsbD k

/-- One bit fed to the CRC register (R178). -/
def crcBit (c : Byte) (b : Bool) : Byte := if c.msb != b then (c <<< 1) ^^^ 0x07#8 else c <<< 1
/-- The CRC-8 of a run of bits, first bit first (R178). -/
def crc8 (bits : List Bool) : Byte := bits.foldl crcBit 0#8

/-- Eight bytes from a number to frame order, or back: byte 0, the least significant, travels first (R178). -/
def swapBytes (x : Bytes8) : Bytes8 :=
  x.extractLsb' 0 8 ++ x.extractLsb' 8 8 ++ x.extractLsb' 16 8 ++ x.extractLsb' 24 8 ++
    x.extractLsb' 32 8 ++ x.extractLsb' 40 8 ++ x.extractLsb' 48 8 ++ x.extractLsb' 56 8

/-- Eleven bytes as one word, byte 0 in bits 87..80: two bytes, eight bytes least significant first, and the CRC-8 over
the ten (R178). -/
def frameWord (first second : Byte) (data : Bytes8) : BitVec 88 :=
  let body : BitVec 80 := first ++ second ++ swapBytes data
  body ++ crc8 (bitsOf body)

/-- The eleven bytes of a reply (R178). -/
def Reply.word (r : Reply) : BitVec 88 := frameWord r.status.code r.echo r.data

/-! ### The shift registers (R177) -/

/-- The frame received is 88 bits long and its CRC is right (R179). -/
def Mlc.frameGood (m : Mlc) : Bool :=
  m.bitCount == Config.frameBits && m.inReg.extractLsb' 0 8 == crc8 (bitsOf (m.inReg.extractLsb' 8 80))
/-- Byte 0 of a whole frame, the command code (R178). -/
def Mlc.frameCode (m : Mlc) : Byte := m.inReg.extractLsb' 80 8
/-- Byte 1 of a whole frame, the selector (R178). -/
def Mlc.frameSel (m : Mlc) : Byte := m.inReg.extractLsb' 72 8
/-- Bytes 2..9 of a whole frame, the argument (R178). -/
def Mlc.frameArg (m : Mlc) : Bytes8 := swapBytes (m.inReg.extractLsb' 8 64)
/-- Byte 0 as received, or 0 when no whole byte was received (R179). -/
def Mlc.receivedCode (m : Mlc) : Byte :=
  if m.bitCount < 8 then 0 else (m.inReg >>> (min m.bitCount Config.frameBits - 8)).setWidth 8

/-- CS_N falls (R177). While PORST_N is asserted the frame is ignored whole (R192). -/
def beginFrame (s : State) : State :=
  if s.pins.porst then
    { s with pins := { s.pins with csLow := true }, mlc := { s.mlc with frameOpen := false } }
  else
    { s with pins := { s.pins with csLow := true }
             mlc := { s.mlc with frameOpen := true, bitCount := 0, outReg := s.mlc.reply.word } }

/-- MOSI is sampled at a rising edge (R177). The register takes the first 88 bits (log 10); the count goes on. -/
def Mlc.shiftIn (m : Mlc) (mosi : Bool) : Mlc :=
  { m with bitCount := m.bitCount + 1
           inReg := if m.bitCount < Config.frameBits then (m.inReg <<< 1) ||| (BitVec.ofBool mosi).setWidth 88
                    else m.inReg }

/-- MISO changes at a falling edge: the next bit of the reply, and 0 once all 88 are out (R177). -/
def Mlc.shiftOut (m : Mlc) : Mlc := { m with outReg := m.outReg <<< 1 }

/-- SCK rises. Edges are ignored while CS_N is high or the frame is ignored (R177, R192) or abandoned (R192; log 24). -/
def clockIn (mosi : Bool) (s : State) : State :=
  if s.pins.csLow && s.mlc.frameOpen then { s with mlc := s.mlc.shiftIn mosi } else s

/-- SCK falls. In an ignored or abandoned frame, once PORST_N is released, MISO may change to another open value (logs 11,
24). -/
def clockOut (s : State) : State :=
  if s.pins.csLow && s.mlc.frameOpen then { s with mlc := s.mlc.shiftOut }
  else if s.pins.csLow && !s.pins.porst then { s with freeCount := s.freeCount + 1 }
  else s

/-- The level of MISO. -/
inductive MisoLevel where
  | highImpedance
  | driven (b : Bool)
deriving DecidableEq, Repr

/-- MISO (R177): high-impedance while CS_N is high and while PORST_N is asserted, else the top of the output register; in
an ignored frame the open value of log 11, and so in a frame that a power-on reset abandoned, while CS_N stays low after the
release (log 24). -/
def State.miso (s : State) : MisoLevel :=
  if !s.pins.csLow || s.pins.porst then .highImpedance
  else if s.mlc.frameOpen then .driven s.mlc.outReg.msb
  else .driven (Config.ignoredFrameMiso s.freeCount)

/-- CS_N rises: no frame is in progress (R177). -/
def endFrame (s : State) : State :=
  { s with pins := { s.pins with csLow := false }, mlc := { s.mlc with frameOpen := false } }

/-- A whole frame of 88 bits shifted in, and the reply before it shifted out: what FRAME_START and 88 pairs of SCK edges
leave (log 8). -/
def loadFrame (code sel : Byte) (arg : Bytes8) (s : State) : State :=
  { s with pins := { s.pins with csLow := true }
           mlc := { s.mlc with frameOpen := true, bitCount := Config.frameBits, inReg := frameWord code sel arg
                               outReg := 0 } }

/-- The bits of a frame of any length, each with its two SCK edges (log 8). -/
def shiftBits (bits : List Bool) (s : State) : State := bits.foldl (fun t b => clockOut (clockIn b t)) s

/-! ### Replies (R179, R181) -/

/-- A frame that is not executed: BAD_FRAME, byte 0 as received, zero data (R179). -/
def endBadFrame (s : State) : State := (endFrame s).setReply ⟨.badFrame, s.mlc.receivedCode, 0⟩

/-- A refused command: its status, its code, zero data; nothing else changes (R181). -/
def refuse (code : Byte) (status : LinkStatus) (s : State) : State := s.setReply ⟨status, code, 0⟩
/-- A command taken: DONE, its code and its data (R178, R182). -/
def reply (code : Byte) (data : Bytes8) (s : State) : State := s.setReply ⟨.done, code, data⟩

/-! ### The command table (R182) -/

/-- The device state admits the command with this code and selector (R182). SET_DEVICE admits settings 1 and 2 in
CONFIGURE only, and a selector that names no setting is BAD_FIELD in every state (R182, R187). -/
def admits (code sel : Byte) (d : DeviceState) : Bool :=
  match code.toNat, d with
  | 0x03, .configure => true
  | 0x03, _ => !(sel == 1#8 || sel == 2#8)
  | 0x13, .lockdown | 0x14, .lockdown => false
  | 0x15, .configure | 0x15, .lockdown => false
  | 0x20, .supervise | 0x20, .lockdown => false
  | 0x21, .configure | 0x21, .lockdown => false
  | 0x22, .lockdown | 0x23, .lockdown => false
  | _, _ => true

/-- The checks 2 and 3 of R181, then the command: the device state, then the ranges, then the command's own. -/
def checked (code sel : Byte) (inRange : Bool) (run : State → State) (s : State) : State :=
  if !admits code sel s.esc.device then refuse code .badState s
  else if !inRange then refuse code .badField s
  else run s

/-- As `checked`, for a command whose selector is an entry index (R182, R186). -/
def checkedIndex (code sel : Byte) (run : Index → State → State) (s : State) : State :=
  if !admits code sel s.esc.device then refuse code .badState s
  else match indexOf sel with
    | none => refuse code .badField s
    | some k => run k s

/-! ### CS_N rising on a command frame (R179; log 8) -/

/-- CS_N rises on a frame of a row. With CS_N low, the frame is the one in the input shift register: an ignored frame,
or the rest of an abandoned one (log 24), ends without effect, a bad one leaves a BAD_FRAME reply, and a good one that fits the row is executed with the register's
selector and argument. With CS_N high, the step carries the whole frame, which `loadFrame` shifts in first. `fits` says
which codes and selectors belong to the row; a frame of another row is not this step (log 4). -/
def takeFrame (fits : Byte → Byte → Bool) (run : Byte → Byte → Bytes8 → State → State) (code sel : Byte) (arg : Bytes8)
    (s : State) : State :=
  if s.pins.csLow then
    if !s.mlc.frameOpen then endFrame s
    else if !s.mlc.frameGood then endBadFrame s
    else if fits s.mlc.frameCode s.mlc.frameSel then
      run s.mlc.frameCode s.mlc.frameSel s.mlc.frameArg (endFrame s)
    else s
  else if s.pins.porst then s
  else if fits code sel then run code sel arg (endFrame (loadFrame code sel arg s))
  else s

/-- A row that stands for every frame of one command code. -/
def takeCommand (code : Byte) (run : Byte → Bytes8 → State → State) (sel : Byte) (arg : Bytes8) (s : State) : State :=
  takeFrame (fun c _ => c == code) (fun _ => run) code sel arg s

end Sys2Proof.Machine
end

