-- ==== Sys2Proof/Machine/Control.lean ====
section
/-! DEFINITION. The commands on the device state and the fail groups, and the collections: LOCKDOWN, RELEASE_GROUP,
FORCE_GROUP (chapter 9), COLLECT, COLLECT_ENTRY and COLLECTED_PART (chapter 10, R190). -/
namespace Sys2Proof.Machine

/-- LOCKDOWN (R151, R153). -/
def execLockdown (sel : Byte) (arg : Bytes8) (s : State) : Result :=
  .next (takeCommand 0x22#8
    (fun v _ => checked 0x22#8 v true fun t => reply 0x22#8 0 (enterLockdown .monitor t)) sel arg s)

/-! ### Groups (R160, R161) -/

/-- The group a selector names, A for 0 (R182). -/
def State.group (s : State) (sel : Byte) : Group := if sel == 0#8 then s.esc.groupA else s.esc.groupB
/-- The named group's state changes; the other group does not (R160). -/
def State.setGroupState (s : State) (sel : Byte) (g : GroupState) : State :=
  if sel == 0#8 then { s with esc := { s.esc with groupA := { s.esc.groupA with state := g } } }
  else { s with esc := { s.esc with groupB := { s.esc.groupB with state := g } } }
/-- The selector names a group (R182). -/
def namesGroup (sel : Byte) : Bool := decide (sel.toNat ≤ 1)

/-- RELEASE_GROUP on the named group (R160). -/
def releaseGroup (sel : Byte) (s : State) : State :=
  match (s.group sel).state with
  | .latched => reply 0x23#8 0 (s.setGroupState sel .clear)
  | .tripped => refuse 0x23#8 .failPresent s
  | .clear => reply 0x23#8 0 s

/-- RELEASE_GROUP (R160). -/
def execReleaseGroup (sel : Byte) (arg : Bytes8) (s : State) : Result :=
  .next (takeCommand 0x23#8 (fun v _ => checked 0x23#8 v (namesGroup v) (releaseGroup v)) sel arg s)

/-- FORCE_GROUP on the named group (R161). -/
def forceGroup (sel : Byte) (s : State) : State :=
  match (s.group sel).state with
  | .clear => reply 0x24#8 0 (s.setGroupState sel .latched)
  | .tripped | .latched => reply 0x24#8 0 s

/-- FORCE_GROUP (R161). -/
def execForceGroup (sel : Byte) (arg : Bytes8) (s : State) : Result :=
  .next (takeCommand 0x24#8 (fun v _ => checked 0x24#8 v (namesGroup v) (forceGroup v)) sel arg s)

/-! ### Collection (R172 to R174, R190) -/

/-- The collection record of entry `k` as it stands (R172, R174). -/
def State.collectionRecord (s : State) (k : Index) : CollectionRecord :=
  { index := k, latched := (s.latch k).latched, capture := (s.latch k).capture, rise := (s.latch k).rise
    fall := (s.latch k).fall, state := (s.entry k).state, faultCounter := (s.entry k).faultCounter }

/-- Entry `k` is collected: the buffer is overwritten, the latch record cleared, and the entry leaves the list (R172). -/
def collectFrom (code : Byte) (k : Index) (s : State) : State :=
  let r := s.collectionRecord k
  let t := clearLatch k { s with mlc := { s.mlc with buffer := some r } }
  reply code r.summary t

/-- COLLECT takes the head of the Attention List (R172). -/
def collectHead (s : State) : State :=
  match s.events.attention with
  | [] => refuse 0x30#8 .emptyList s
  | k :: _ => collectFrom 0x30#8 k s

/-- COLLECT (R172, R190). -/
def execCollect (sel : Byte) (arg : Bytes8) (s : State) : Result :=
  .next (takeCommand 0x30#8 (fun v _ => checked 0x30#8 v true collectHead) sel arg s)

/-- COLLECT_ENTRY takes a named entry whose latched set is not empty (R173). -/
def collectNamed (k : Index) (s : State) : State :=
  if (s.latch k).latched == 0 then refuse 0x31#8 .emptyList s else collectFrom 0x31#8 k s

/-- COLLECT_ENTRY (R173, R190). -/
def execCollectEntry (sel : Byte) (arg : Bytes8) (s : State) : Result :=
  .next (takeCommand 0x31#8 (fun v _ => checkedIndex 0x31#8 v collectNamed) sel arg s)

/-- COLLECTED_PART (R190). -/
def execCollectedPart (sel : Byte) (arg : Bytes8) (s : State) : Result :=
  .next (takeCommand 0x32#8
    (fun v _ => checked 0x32#8 v (decide (v.toNat ≤ 3))
      fun t => reply 0x32#8 (collectedPartData t.mlc.buffer v.toNat) t) sel arg s)

end Sys2Proof.Machine
end

