-- ==== Sys2Proof/Machine/Link.lean ====
section
/-! DEFINITION. The link's own events and the commands on the device: FRAME_START, the SCK edges, BAD_FRAME, BAD_COMMAND,
NOP, IDENTIFY, DEVICE_STATUS and the three settings of SET_DEVICE (R177 to R183, R187). -/
namespace Sys2Proof.Machine

/-- FRAME_START: CS_N falls (R177, R192). With CS_N low already there is no falling edge. -/
def execFrameStart (s : State) : Result := .next (onlyIf (!s.pins.csLow) beginFrame s)
/-- SCK_RISING_EDGE (R177). -/
def execSckRisingEdge (mosi : Bool) (s : State) : Result := .next (clockIn mosi s)
/-- SCK_FALLING_EDGE (R177). -/
def execSckFallingEdge (s : State) : Result := .next (clockOut s)

/-- CS_N rises on the frame in the input shift register, when that frame is ignored, abandoned or bad (R179, R192;
log 24). -/
def riseOnBadFrame (s : State) : State :=
  if !s.mlc.frameOpen then endFrame s else if s.mlc.frameGood then s else endBadFrame s

/-- BAD_FRAME (R179): with CS_N low, on the frame received; with CS_N high, on the whole frame that the step carries
(log 8), which is no BAD_FRAME when it is well formed (log 4). -/
def takeBadFrame (bits : List Bool) (s : State) : State :=
  if s.pins.csLow then riseOnBadFrame s
  else
    let t := shiftBits bits (beginFrame s)
    if t.mlc.frameOpen && t.mlc.frameGood then s else riseOnBadFrame t

/-- BAD_FRAME (R179). -/
def execBadFrame (bits : List Bool) (s : State) : Result := .next (takeBadFrame bits s)

/-- BAD_COMMAND: a well-formed frame whose code is not in the command table (R181). -/
def execBadCommand (code sel : Byte) (arg : Bytes8) (s : State) : Result :=
  .next (takeFrame (fun c _ => !commandCodes.contains c) (fun c _ _ => refuse c .badCommand) code sel arg s)

/-- NOP (R182). -/
def execNop (sel : Byte) (arg : Bytes8) (s : State) : Result :=
  .next (takeCommand 0x00#8 (fun _ _ => reply 0x00#8 0) sel arg s)

/-- IDENTIFY (R183). -/
def execIdentify (sel : Byte) (arg : Bytes8) (s : State) : Result :=
  .next (takeCommand 0x01#8 (fun _ _ => reply 0x01#8 Config.identity) sel arg s)

/-- DEVICE_STATUS, view 0 (R164, R183). -/
def statusView (s : State) : Bytes8 :=
  dataAt 0 s.esc.device.code ||| dataAt 1 s.esc.reason.code ||| dataAt 2 s.esc.reason.indexCode
    ||| dataAt 3 s.esc.groupA.state.code ||| dataAt 4 s.esc.groupB.state.code
    ||| dataAt 5 s.events.attention.length ||| dataAt 6 s.mlc.startCause.code
    ||| dataAt 7 (boolCode s.mlc.alertEnable + 2 * boolCode s.alertAsserted)

/-- DEVICE_STATUS, view 1 (R183). -/
def settingsView (s : State) : Bytes8 :=
  dataAt 0 s.mlc.armingWindow.code ||| dataAt 1 s.mlc.poison.toNat ||| dataAt 5 (boolCode s.mlc.alertEnable)

/-- DEVICE_STATUS once its checks have passed. -/
def deviceStatus (sel : Byte) (s : State) : State :=
  reply 0x02#8 (if sel == 0#8 then statusView s else settingsView s) s

/-- DEVICE_STATUS (R183): a selector above 1 is BAD_FIELD. -/
def execDeviceStatus (sel : Byte) (arg : Bytes8) (s : State) : Result :=
  .next (takeCommand 0x02#8 (fun v _ => checked 0x02#8 v (decide (v.toNat ≤ 1)) (deviceStatus v)) sel arg s)

/-! ### SET_DEVICE (R187) -/

/-- A SET_DEVICE frame taken for setting `k`, whose value is in range when `value` finds one (R181, R187). -/
def setSetting {α : Type} (k : Byte) (value : Bytes8 → Option α) (put : α → State → State) (sel : Byte) (arg : Bytes8)
    (s : State) : State :=
  if !admits 0x03#8 sel s.esc.device then refuse 0x03#8 .badState s
  else if sel != k then refuse 0x03#8 .badField s
  else match value arg with
    | none => refuse 0x03#8 .badField s
    | some v => reply 0x03#8 0 (put v s)

/-- A SET_DEVICE frame of the row of setting `k`: its selector is `k`, or names no setting (log 9). -/
def takeSetDevice {α : Type} (k : Byte) (value : Bytes8 → Option α) (put : α → State → State) (sel : Byte) (arg : Bytes8)
    (s : State) : State :=
  takeFrame (fun c v => c == 0x03#8 && setDeviceSelector k v) (fun _ => setSetting k value put) 0x03#8 sel arg s

/-- The poison word a value stands for: 0..4,294,967,295 (R187). -/
def poisonOf (v : Bytes8) : Option Word := if v.toNat ≤ 4294967295 then some (BitVec.ofNat 32 v.toNat) else none
/-- The alert enable a value stands for: 0 clear, 1 set (R187). -/
def enableOf (v : Bytes8) : Option Bool :=
  match v.toNat with
  | 0 => some false
  | 1 => some true
  | _ => none

def putArmingWindow (w : ArmingWindow) (s : State) : State := { s with mlc := { s.mlc with armingWindow := w } }
def putPoison (w : Word) (s : State) : State := { s with mlc := { s.mlc with poison := w } }
def putAlertEnable (b : Bool) (s : State) : State := { s with mlc := { s.mlc with alertEnable := b } }

/-- SET_ARMING_WINDOW: SET_DEVICE setting 1 (R123, R187). -/
def execSetArmingWindow (sel : Byte) (arg : Bytes8) (s : State) : Result :=
  .next (takeSetDevice 1#8 (fun v => ArmingWindow.ofCode v.toNat) putArmingWindow sel arg s)
/-- SET_POISON_WORD: SET_DEVICE setting 2 (R142, R187). -/
def execSetPoisonWord (sel : Byte) (arg : Bytes8) (s : State) : Result :=
  .next (takeSetDevice 2#8 poisonOf putPoison sel arg s)
/-- SET_ALERT_ENABLE: SET_DEVICE setting 3 (R171, R187). -/
def execSetAlertEnable (sel : Byte) (arg : Bytes8) (s : State) : Result :=
  .next (takeSetDevice 3#8 enableOf putAlertEnable sel arg s)

end Sys2Proof.Machine
end

