-- ==== Sys2Proof/Machine/Resets.lean ====
section
/-! DEFINITION. The three resets and the releases of the reset pins: PROCESSOR_SIDE_RESET (R24, R43, R136),
PRST_N_RELEASE (R27), POWER_ON_RESET and PORST_N_RELEASE (R46, R193), SOFT_RESET (R191). -/
namespace Sys2Proof.Machine

/-- The drain of the queue: DECIDED and DONE slots are discarded, ISSUED slots are marked (R43). -/
def drainSlots (slots : List Slot) : List Slot :=
  (slots.filter fun x => x.progress == .issued).map fun x => { x with discard := true }

/-- The queue drains until it is empty (R43, R44). -/
def drain (s : State) : State :=
  let slots := drainSlots s.transit.slots
  { s with transit := ⟨slots, !slots.isEmpty⟩ }

/-- A processor-side reset re-arms the entry: ARMED, LIVE or STALE (R24). -/
def EntryState.rearmedByReset : EntryState → Bool
  | .armed | .live | .stale => true
  | .empty | .defined | .failed => false

/-- An entry after a processor-side reset in SUPERVISE (R24). -/
def Entry.afterProcessorReset (e : Entry) : Entry :=
  if e.state.rearmedByReset then { e with state := .armed, phase := .closed, pendingHalf := none } else e

/-- The window record of an entry after a processor-side reset in SUPERVISE (R24, R136). -/
def windowAfterProcessorReset (e : Entry) (setting : ArmingWindow) (w : Window) : Window :=
  if e.state.rearmedByReset then armingWindowFor e.defn setting else w

/-- The processor-side reset at the Entry Store and the Window Timer, in SUPERVISE only (R24, R136). -/
def rearmEntries (s : State) : State :=
  onlyIf (s.esc.device == .supervise)
    (fun t => (t.mapWindows fun k w => windowAfterProcessorReset (t.entry k) t.mlc.armingWindow w).mapEntries
      fun _ e => e.afterProcessorReset) s

/-- PRST_N becomes asserted. -/
def State.setPrst (s : State) (b : Bool) : State := { s with pins := { s.pins with prst := b } }

/-- PROCESSOR_SIDE_RESET: the assertion of PRST_N (R24, R43). With PRST_N asserted already there is no assertion; while
PORST_N is asserted it has no effect beyond the pin (R193), as the queue and the table are empty in CONFIGURE. -/
def execProcessorSideReset (s : State) : Result :=
  .next (onlyIf (!s.pins.prst) (fun t => drain (rearmEntries (t.setPrst true))) s)

/-- PRST_N_RELEASE (R27). -/
def execPrstNRelease (s : State) : Result := .next (s.setPrst false)

/-- PORST_N is asserted or released. -/
def State.setPorst (s : State) (b : Bool) : State := { s with pins := { s.pins with porst := b } }

/-- POWER_ON_RESET: every block takes its power-on values; a frame in progress is abandoned (R46, R192, R193; log 24
for what is left of it). -/
def execPowerOnReset (s : State) : Result := .next ((powerOnValues s).setPorst true)

/-- PORST_N_RELEASE: the divider starts its count from its start (R120, R193). -/
def execPorstNRelease (s : State) : Result := .next (s.setPorst false)

/-- The MLC after a soft reset (R191, R192): the frame registers stay, the rest takes its defaults. -/
def softResetMlc (m : Mlc) : Mlc :=
  { m with reply := resetReply, draft := draftDefaults, buffer := none, startCause := .soft
           armingWindow := .ms1000, poison := Config.defaultPoison, alertEnable := true }

/-- The soft reset of every block it reaches; the bus sides and the divider run on (R23, R45, R136, R148, R176, R191). -/
def softResetAll (s : State) : State :=
  { s with entries := Vector.replicate 64 emptyEntry
           timer := { s.timer with windows := Vector.replicate 64 stoppedWindow }
           esc := resetEscalation
           events := resetEvents
           mlc := softResetMlc s.mlc }

/-- SOFT_RESET (R191). -/
def execSoftReset (sel : Byte) (arg : Bytes8) (s : State) : Result :=
  .next (takeCommand 0x3F#8 (fun _ _ => softResetAll) sel arg s)

end Sys2Proof.Machine
end

