-- ==== Sys2Proof/Machine/Table.lean ====
section
/-! DEFINITION. The commands on the draft and on the table: DRAFT_CLEAR, DRAFT_SET, DRAFT_OMIT, INSTALL, RETIRE, REARM,
READ_ENTRY, START and STOP (chapter 1, R184 to R189). -/
namespace Sys2Proof.Machine

/-! ### The draft (R185) -/

def State.setDraft (s : State) (d : Definition) : State := { s with mlc := { s.mlc with draft := d } }

/-- DRAFT_CLEAR once its checks have passed. -/
def draftClear (s : State) : State := reply 0x10#8 0 (s.setDraft draftDefaults)
/-- DRAFT_CLEAR (R185). -/
def execDraftClear (sel : Byte) (arg : Bytes8) (s : State) : Result :=
  .next (takeCommand 0x10#8 (fun v _ => checked 0x10#8 v true draftClear) sel arg s)

/-- A draft command whose outcome is a new draft, or BAD_FIELD (R185). -/
def changeDraft (code : Byte) (d : Option Definition) (s : State) : State :=
  match d with
  | none => refuse code .badField s
  | some x => reply code 0 (s.setDraft x)

/-- DRAFT_SET (R185). -/
def execDraftSet (sel : Byte) (arg : Bytes8) (s : State) : Result :=
  .next (takeCommand 0x11#8
    (fun f v => checked 0x11#8 f true fun t => changeDraft 0x11#8 (t.mlc.draft.setField f v) t) sel arg s)

/-- DRAFT_OMIT (R185). -/
def execDraftOmit (sel : Byte) (arg : Bytes8) (s : State) : Result :=
  .next (takeCommand 0x12#8
    (fun f _ => checked 0x12#8 f true fun t => changeDraft 0x12#8 (t.mlc.draft.omitField f) t) sel arg s)

/-! ### INSTALL (R13 to R16) -/

/-- A covered word of the draft is covered by another entry that is not EMPTY (R15). -/
def State.draftOverlaps (s : State) (d : Definition) : Bool :=
  indices.any fun k => (s.entry k).state != .empty && d.overlaps (s.entry k).defn

/-- An entry with the dynamic fields that INSTALL and START set (R8). -/
def freshEntry (d : Definition) (state : EntryState) : Entry := ⟨d, state, .closed, 0, 0, none, none, .inside, false⟩

/-- INSTALL once its checks have passed (R16). -/
def installDraft (k : Index) (s : State) : State :=
  let d := s.mlc.draft
  match s.esc.device with
  | .supervise => (s.setEntry k (freshEntry d .armed)).setWindow k (armingWindowFor d s.mlc.armingWindow)
  | .configure | .lockdown => s.setEntry k (freshEntry d .defined)

/-- INSTALL's own checks, in the order of R13: the entry is EMPTY, the draft is consistent, no word overlaps. -/
def install (k : Index) (s : State) : State :=
  if (s.entry k).state != .empty then refuse 0x13#8 .badState s
  else if !s.mlc.draft.consistent then refuse 0x13#8 .badField s
  else if s.draftOverlaps s.mlc.draft then refuse 0x13#8 .overlap s
  else reply 0x13#8 0 (installDraft k s)

/-- INSTALL (R13, R16). -/
def execInstall (sel : Byte) (arg : Bytes8) (s : State) : Result :=
  .next (takeCommand 0x13#8 (fun v _ => checkedIndex 0x13#8 v install) sel arg s)

/-! ### RETIRE (R21) -/

/-- RETIRE once its checks have passed: the entry is EMPTY, its window stopped, its latches discarded (R21). -/
def retireEntry (k : Index) (s : State) : State :=
  clearLatch k ((s.setEntry k emptyEntry).setWindow k stoppedWindow)

/-- RETIRE's own checks (R21). -/
def retire (k : Index) (s : State) : State :=
  match (s.entry k).state with
  | .empty => refuse 0x14#8 .badState s
  | .failed => refuse 0x14#8 .failPresent s
  | .defined | .armed | .live | .stale => reply 0x14#8 0 (retireEntry k s)

/-- RETIRE (R21). -/
def execRetire (sel : Byte) (arg : Bytes8) (s : State) : Result :=
  .next (takeCommand 0x14#8 (fun v _ => checkedIndex 0x14#8 v retire) sel arg s)

/-! ### REARM (R19, R159) -/

/-- An entry after REARM (R19). -/
def Entry.rearmed (e : Entry) : Entry :=
  { e with state := .armed, faultCounter := 0, dwellCounter := 0, lastGood := none, warn := .inside
           singleFired := false, phase := .closed, pendingHalf := none }

/-- REARM once its checks have passed; of a FAILED entry it hands the Escalation Unit a REARM completion (R19, R159). -/
def rearmEntry (k : Index) (s : State) : State :=
  let e := s.entry k
  let t := (s.setEntry k e.rearmed).setWindow k (armingWindowFor e.defn s.mlc.armingWindow)
  if e.state == .failed then t.setEscalation (applyRearm k e.defn.reaction s.esc) else t

/-- REARM's own check: the entry is ARMED, LIVE, STALE or FAILED (R19). In SUPERVISE no entry is DEFINED (R48). -/
def rearm (k : Index) (s : State) : State :=
  match (s.entry k).state with
  | .empty | .defined => refuse 0x15#8 .badState s
  | .armed | .live | .stale | .failed => reply 0x15#8 0 (rearmEntry k s)

/-- REARM (R19). -/
def execRearm (sel : Byte) (arg : Bytes8) (s : State) : Result :=
  .next (takeCommand 0x15#8 (fun v _ => checkedIndex 0x15#8 v rearm) sel arg s)

/-! ### READ_ENTRY (R188) -/

/-- READ_ENTRY's reply for an index and a part; a part above 12 is BAD_FIELD (R188). -/
def readEntry (part : Bytes8) (k : Index) (s : State) : State :=
  if 12 < part.toNat then refuse 0x16#8 .badField s
  else reply 0x16#8 (entryPart (s.entry k) (s.window k) part.toNat) s

/-- READ_ENTRY (R188, R189). -/
def execReadEntry (sel : Byte) (arg : Bytes8) (s : State) : Result :=
  .next (takeCommand 0x16#8 (fun v part => checkedIndex 0x16#8 v (readEntry part)) sel arg s)

/-! ### START and STOP (R17, R18, R149, R150) -/

/-- An entry after START (R17). -/
def Entry.started (e : Entry) : Entry := if e.state == .defined then freshEntry e.defn .armed else e
/-- The window record of an entry at START (R17, R123). -/
def windowAtStart (e : Entry) (setting : ArmingWindow) (w : Window) : Window :=
  if e.state == .defined then armingWindowFor e.defn setting else w

def State.setDevice (s : State) (d : DeviceState) : State := { s with esc := { s.esc with device := d } }

/-- START once its checks have passed (R17, R149). -/
def startSupervision (s : State) : State :=
  (((s.mapWindows fun k w => windowAtStart (s.entry k) s.mlc.armingWindow w).mapEntries
    fun _ e => e.started)).setDevice .supervise

/-- START (R17, R149). -/
def execStart (sel : Byte) (arg : Bytes8) (s : State) : Result :=
  .next (takeCommand 0x20#8 (fun v _ => checked 0x20#8 v true fun t => reply 0x20#8 0 (startSupervision t)) sel arg s)

/-- STOP moves the entry to DEFINED: ARMED, LIVE or STALE (R18). -/
def EntryState.stops : EntryState → Bool
  | .armed | .live | .stale => true
  | .empty | .defined | .failed => false

/-- An entry after STOP (R18). -/
def Entry.stopped (e : Entry) : Entry :=
  if e.state.stops then
    { e with state := .defined, faultCounter := 0, dwellCounter := 0, lastGood := none, pendingHalf := none }
  else e
/-- The window record of an entry at STOP (R18, R134). -/
def windowAtStop (e : Entry) (w : Window) : Window := if e.state.stops then stoppedWindow else w

/-- STOP once its checks have passed (R18). -/
def stopSupervision (s : State) : State :=
  ((s.mapWindows fun k w => windowAtStop (s.entry k) w).mapEntries fun _ e => e.stopped).setDevice .configure

/-- Some entry is FAILED. -/
def State.anyFailed (s : State) : Bool := indices.any fun k => (s.entry k).state == .failed

/-- STOP's own check: no entry is FAILED (R18, R150). -/
def stop (s : State) : State :=
  if s.anyFailed then refuse 0x21#8 .failPresent s else reply 0x21#8 0 (stopSupervision s)

/-- STOP (R18, R150). -/
def execStop (sel : Byte) (arg : Bytes8) (s : State) : Result :=
  .next (takeCommand 0x21#8 (fun v _ => checked 0x21#8 v true stop) sel arg s)

end Sys2Proof.Machine
end

