-- ==== Sys2Proof/Machine/Transit.lean ====
section
/-! DEFINITION. SLOT_ISSUE, MEMORY_ACCEPT, MEMORY_ANSWER and RESPONSE_TAKEN: a slot on its way through the Transit Queue
and the Memory-Side Interface (chapter 2). While BCLK is stopped none of the four comes (R194; log 23). -/
namespace Sys2Proof.Machine

/-- SLOT_ISSUE: the oldest DECIDED slot is issued when the request stage is empty (R31, R194). -/
def execSlotIssue (s : State) : Result := .next (onlyIf (s.busRuns && s.msi.stage.isEmpty) issueOldest s)

/-- The access offered on the memory side (R32); none while BCLK is stopped (R194; log 23). -/
def State.memoryOffer (s : State) : Option Access := if s.busRuns then s.msi.stage.head? else none

/-- Memory accepts the offered access: the outstanding count rises, and the next access of the slot is offered or the
stage empties (R32). -/
def acceptAccess (s : State) : State :=
  match s.msi.stage with
  | [] => s
  | a :: rest => { s with msi := ⟨rest, s.msi.outstanding ++ [a.tag]⟩ }

/-- MEMORY_ACCEPT (R32, R194). -/
def execMemoryAccept (s : State) : Result := .next (onlyIf s.busRuns acceptAccess s)

/-- The status of an access after its answer: ERROR when the tag does not match (R33). -/
def matchedStatus (expected given : SlotNo) (status : Answer) : Answer := if given == expected then status else .error

/-- The status of a slot with one more answer: ERROR once any answer was ERROR (R34, R35, R36; log 14). -/
def joinStatus (before : Option Answer) (now : Answer) : Answer :=
  match before, now with
  | some .error, _ => .error
  | _, .error => .error
  | _, .okay => .okay

/-- A slot that one memory answer reaches: DONE with its last one (R33 to R36). -/
def Slot.answered (x : Slot) (status : Answer) (data : Word) : Slot :=
  { x with awaited := x.awaited - 1
           status := some (joinStatus x.status status)
           answerData := match x.kind with
             | .read => some data
             | .write => x.answerData
           progress := if x.awaited - 1 = 0 then .done else x.progress }

/-- The slot has received its last awaited answer while marked, so it leaves without a response (R44). -/
def Slot.leavesDrained (x : Slot) : Bool := x.discard && x.progress == .done

/-- An answer reaches the slot with this number; a marked slot with its last answer leaves at once (R33, R44). -/
def answerSlot (n : SlotNo) (status : Answer) (data : Word) (slots : List Slot) : List Slot :=
  (slots.map fun x => if x.number == n then x.answered status data else x).filter fun x => !x.leavesDrained

/-- A memory answer: taken for the oldest outstanding access, or discarded when the count is 0 (R33, R44). -/
def takeAnswer (tag : SlotNo) (status : Answer) (data : Word) (s : State) : State :=
  match s.msi.outstanding with
  | [] => s
  | n :: rest =>
    let slots := answerSlot n (matchedStatus n tag status) data s.transit.slots
    { s with msi := { s.msi with outstanding := rest }
             transit := ⟨slots, s.transit.draining && !slots.isEmpty⟩ }

/-- MEMORY_ANSWER (R33, R34, R35, R36, R44, R194). -/
def execMemoryAnswer (tag : SlotNo) (status : Answer) (data : Word) (s : State) : Result :=
  .next (onlyIf s.busRuns (takeAnswer tag status data) s)

/-- A response on the processor side (R39). -/
structure Response where
  initiator : Initiator
  tag : ProcTag
  status : Answer
  data : Option Word
deriving DecidableEq, Repr

/-- The response of a slot (R39). A DONE slot has a status. -/
def Slot.response (x : Slot) : Response := ⟨x.initiator, x.tag, x.status.getD .okay, x.answerData⟩

/-- The response offered on the processor side: that of a DONE slot at the head (R39); none while BCLK is stopped (R194;
log 23). -/
def State.responseOffer (s : State) : Option Response :=
  match s.transit.slots with
  | [] => none
  | x :: _ => if s.busRuns && x.progress == .done then some x.response else none

/-- The processor side takes the offered response: the head slot leaves and becomes free (R39). -/
def takeResponse (s : State) : State :=
  match s.transit.slots with
  | [] => s
  | x :: rest => if x.progress == .done then s.setSlots rest else s

/-- RESPONSE_TAKEN (R39, R194). -/
def execResponseTaken (s : State) : Result := .next (onlyIf s.busRuns takeResponse s)

end Sys2Proof.Machine
end

