-- ==== Sys2Proof/Machine/Windows.lean ====
section
/-! DEFINITION. TICK and the four window events (chapter 7). An expiry is due from the tick that brings the count to 0
until it is taken, or until the window is restarted, stopped or frozen (R122; logs 6, 7). -/
namespace Sys2Proof.Machine

/-- Windows run in SUPERVISE: none runs in CONFIGURE, and LOCKDOWN freezes every record (R134, R135). -/
def State.windowsRun (s : State) : Bool := s.esc.device == .supervise

/-- The arming window of entry `k` has expired (R124). -/
def State.armingDue (s : State) (k : Index) : Bool :=
  s.windowsRun && s.window k == ⟨.arming, 0⟩ && (s.entry k).state == .armed
/-- The closed window of entry `k` has ended: the CYCLE count is P - C, with C above 0 and the phase CLOSED (R126). -/
def State.closedEndDue (s : State) (k : Index) : Bool :=
  let d := (s.entry k).defn
  s.windowsRun && s.window k == ⟨.cycle, d.periodMs - d.closedMs⟩ && d.closedMs != 0 &&
    (s.entry k).state == .live && (s.entry k).phase == .closed
/-- The open window of entry `k` has expired (R129). -/
def State.openDue (s : State) (k : Index) : Bool :=
  s.windowsRun && s.window k == ⟨.cycle, 0⟩ && (s.entry k).state == .live
/-- The stale period of entry `k` has expired (R130). -/
def State.staleDue (s : State) (k : Index) : Bool :=
  s.windowsRun && s.window k == ⟨.stalePeriod, 0⟩ && (s.entry k).state == .stale

/-- The end of a closed window: the phase becomes OPEN and nothing else changes (R126). -/
def openPhase (k : Index) (s : State) : State := s.setEntry k { s.entry k with phase := .opened }

/-- ARMING_EXPIRY (R124, R132). -/
def execArmingExpiry (k : Index) (s : State) : Result := .next (onlyIf (s.armingDue k) (lateExpiry k) s)
/-- CLOSED_WINDOW_END (R126). -/
def execClosedWindowEnd (k : Index) (s : State) : Result := .next (onlyIf (s.closedEndDue k) (openPhase k) s)
/-- OPEN_WINDOW_EXPIRY (R129, R132). -/
def execOpenWindowExpiry (k : Index) (s : State) : Result := .next (onlyIf (s.openDue k) (lateExpiry k) s)
/-- STALE_PERIOD_EXPIRY (R130, R132). -/
def execStalePeriodExpiry (k : Index) (s : State) : Result := .next (onlyIf (s.staleDue k) (lateExpiry k) s)

/-- A window event of entry `k` that is still due is taken (log 6). -/
def takeDue (k : Index) (s : State) : State :=
  if s.closedEndDue k then openPhase k s
  else onlyIf (s.armingDue k || s.openDue k || s.staleDue k) (lateExpiry k) s

/-- Every window event still due is taken, in index order (log 6). -/
def takeAllDue (s : State) : State := indices.foldl (fun t k => takeDue k t) s

/-- A tick lowers the count of a record that is not STOPPED (R122). -/
def Window.lowered (w : Window) : Window :=
  match w.kind with
  | .stopped => w
  | .arming | .cycle | .stalePeriod => { w with count := w.count - 1 }

/-- A tick lowers the count of every running window (R122); LOCKDOWN freezes them (R135). -/
def lowerWindows (s : State) : State := onlyIf s.windowsRun (fun t => t.mapWindows fun _ w => w.lowered) s

/-- One tick: the events of the tick before that no step has taken are taken first (log 6). -/
def oneTick (s : State) : State := lowerWindows (takeAllDue s)

/-- A number of ticks. -/
def ticks : Nat → State → State
  | 0, s => s
  | n + 1, s => ticks n (oneTick s)

/-- REFCLK runs for some periods: each 4,096 counted by the divider make a tick (R120, R194; log 5). -/
def runRefclk (periods : Nat) (s : State) : State :=
  let count := s.timer.divider + periods
  ticks (count / Config.refclkPerTick) { s with timer := { s.timer with divider := count % Config.refclkPerTick } }

/-- TICK (R120, R122). While PORST_N is asserted the divider is held at its start (R193). -/
def execTick (periods : Nat) (s : State) : Result := .next (onlyIf (!s.pins.porst) (runRefclk periods) s)

end Sys2Proof.Machine
end

