-- ==== Sys2Proof/Machine/Dispatch.lean ====
section
/-! DEFINITION. The meaning of every command: one arm per row of the table. -/
namespace Sys2Proof.Machine

def exec (i : Instr) (s : State) : Host.Outcome State Fault Refusal :=
  match i with
  | .writeArrival ini tag addr lanes data => Sys2Proof.Machine.execWriteArrival ini tag addr lanes data s
  | .readArrival ini tag addr => Sys2Proof.Machine.execReadArrival ini tag addr s
  | .slotIssue => Sys2Proof.Machine.execSlotIssue s
  | .memoryAccept => Sys2Proof.Machine.execMemoryAccept s
  | .memoryAnswer tag status data => Sys2Proof.Machine.execMemoryAnswer tag status data s
  | .responseTaken => Sys2Proof.Machine.execResponseTaken s
  | .processorSideReset => Sys2Proof.Machine.execProcessorSideReset s
  | .prstNRelease => Sys2Proof.Machine.execPrstNRelease s
  | .powerOnReset => Sys2Proof.Machine.execPowerOnReset s
  | .porstNRelease => Sys2Proof.Machine.execPorstNRelease s
  | .tick periods => Sys2Proof.Machine.execTick periods s
  | .armingExpiry idx => Sys2Proof.Machine.execArmingExpiry idx s
  | .closedWindowEnd idx => Sys2Proof.Machine.execClosedWindowEnd idx s
  | .openWindowExpiry idx => Sys2Proof.Machine.execOpenWindowExpiry idx s
  | .stalePeriodExpiry idx => Sys2Proof.Machine.execStalePeriodExpiry idx s
  | .frameStart => Sys2Proof.Machine.execFrameStart s
  | .badFrame bits => Sys2Proof.Machine.execBadFrame bits s
  | .badCommand code sel arg => Sys2Proof.Machine.execBadCommand code sel arg s
  | .nop sel arg => Sys2Proof.Machine.execNop sel arg s
  | .identify sel arg => Sys2Proof.Machine.execIdentify sel arg s
  | .deviceStatus sel arg => Sys2Proof.Machine.execDeviceStatus sel arg s
  | .setArmingWindow sel arg => Sys2Proof.Machine.execSetArmingWindow sel arg s
  | .setPoisonWord sel arg => Sys2Proof.Machine.execSetPoisonWord sel arg s
  | .setAlertEnable sel arg => Sys2Proof.Machine.execSetAlertEnable sel arg s
  | .draftClear sel arg => Sys2Proof.Machine.execDraftClear sel arg s
  | .draftSet sel arg => Sys2Proof.Machine.execDraftSet sel arg s
  | .draftOmit sel arg => Sys2Proof.Machine.execDraftOmit sel arg s
  | .install sel arg => Sys2Proof.Machine.execInstall sel arg s
  | .retire sel arg => Sys2Proof.Machine.execRetire sel arg s
  | .rearm sel arg => Sys2Proof.Machine.execRearm sel arg s
  | .readEntry sel arg => Sys2Proof.Machine.execReadEntry sel arg s
  | .start sel arg => Sys2Proof.Machine.execStart sel arg s
  | .stop sel arg => Sys2Proof.Machine.execStop sel arg s
  | .lockdown sel arg => Sys2Proof.Machine.execLockdown sel arg s
  | .releaseGroup sel arg => Sys2Proof.Machine.execReleaseGroup sel arg s
  | .forceGroup sel arg => Sys2Proof.Machine.execForceGroup sel arg s
  | .collect sel arg => Sys2Proof.Machine.execCollect sel arg s
  | .collectEntry sel arg => Sys2Proof.Machine.execCollectEntry sel arg s
  | .collectedPart sel arg => Sys2Proof.Machine.execCollectedPart sel arg s
  | .softReset sel arg => Sys2Proof.Machine.execSoftReset sel arg s
  | .sckRisingEdge mosi => Sys2Proof.Machine.execSckRisingEdge mosi s
  | .sckFallingEdge => Sys2Proof.Machine.execSckFallingEdge s

end Sys2Proof.Machine
end

