-- ==== Sys2Proof/Machine/Step.lean ====
section
/-! DEFINITION. One step of the block: the command at the front of the queue, or, with no command waiting, the acceptance
of a request held offered (log 3). -/
namespace Sys2Proof.Machine

/-- Take the command at the front of the queue and run it with the queue's rest. On an empty queue the part accepts a
request that is held offered once it can (R27, log 3), and otherwise idles. -/
def step (s : State) : Host.Outcome State Fault Refusal :=
  match s.pending with
  | c :: rest => exec c { s with pending := rest }
  | [] => .next (acceptHeldOffer s)

/-- The state with the command a word spells put at the front of its queue; no word spells one (Decode.lean). -/
def State.withFetchWord (s : State) (nbits w : Nat) : State :=
  match decodeTableWord nbits w with
  | some c => { s with pending := c :: s.pending }
  | none => s

end Sys2Proof.Machine
end

