-- ==== Sys2Proof/Safety.lean ====
section
/-! DEFINITION. What the part keeps: the laws the manual states of the MNC6408, each as a predicate over one state, and the
frame that a link row carries. The statements say that every step keeps each law and that the reset state meets them. -/
namespace Sys2Proof.Machine

/-! ### Entries -/

/-- Every static field lies in the range of R2; the fields whose type is their range need no clause. -/
def Definition.inRange (d : Definition) : Prop :=
  d.writers ≠ 0 ∧ 1 ≤ d.dwell ∧ d.dwell ≤ 8 ∧ 1 ≤ d.maxStep ∧ d.maxStep ≤ 65535 ∧ 1 ≤ d.threshold ∧ d.threshold ≤ 7

/-- Every field of the draft and of every entry lies in its range (R2). -/
def RangeLaw (s : State) : Prop := s.mlc.draft.inRange ∧ ∀ k, (s.entry k).defn.inRange

/-- An entry's fault counter never exceeds its fail threshold, and equals it exactly when the entry is FAILED (R9). -/
def CounterLaw (s : State) : Prop :=
  ∀ k, (s.entry k).faultCounter ≤ (s.entry k).defn.threshold ∧
    ((s.entry k).faultCounter = (s.entry k).defn.threshold ↔ (s.entry k).state = .failed)

/-- No two entries that are not EMPTY cover a common word (R15), every entry that is not EMPTY was consistent when it was
installed (R14), and an EMPTY entry holds the draft defaults and the EMPTY values (R1, R8). -/
def TableLaw (s : State) : Prop :=
  (∀ i j a, (s.entry i).covers a = true → (s.entry j).covers a = true → i = j) ∧
  ∀ k, if (s.entry k).state = .empty then s.entry k = emptyEntry else (s.entry k).defn.consistent = true

/-- A pending half is held only by a REAL64 entry in ARMED, LIVE or STALE, in SUPERVISE, for a member of its writer set
(R106). -/
def PendingLaw (s : State) : Prop :=
  ∀ k p, (s.entry k).pendingHalf = some p →
    (s.entry k).defn.format = .real64 ∧
    ((s.entry k).state = .armed ∨ (s.entry k).state = .live ∨ (s.entry k).state = .stale) ∧
    s.esc.device = .supervise ∧ (s.entry k).defn.allowsWriter p.initiator = true

/-- A value has the shape of its format: two words for REAL64, one for the others (R10). -/
def Value.fits (v : Value) (f : Format) : Prop :=
  match v with
  | .word _ => f ≠ .real64
  | .pair _ _ => f = .real64

/-- The last good value of a numeric entry lies within its hard band and, for real formats, is of an allowed class
(R65). -/
def LastGoodLaw (s : State) : Prop :=
  ∀ k v, (s.entry k).lastGood = some v →
    let d := (s.entry k).defn
    v.fits d.format ∧
    (d.format.numeric = true →
      outsideBand (d.hardLow.number d.format) (d.hardHigh.number d.format) (readValue d.format v) = false) ∧
    (∀ c, readClass d.format v = some c → d.allowsClass c = true)

/-- The dwell counter never exceeds the dwell (R84); in SINGLE mode the condition is OUTSIDE only with the flag set
(R100), in the other modes the flag stays clear (R98, R99); SEQUENCE and FLAGS entries move none of the three (R72). -/
def WarnLaw (s : State) : Prop :=
  ∀ k, let e := s.entry k
    e.dwellCounter ≤ e.defn.dwell ∧
    (e.defn.alarmMode = .single → e.warn = .outside → e.singleFired = true) ∧
    (e.defn.alarmMode ≠ .single → e.singleFired = false) ∧
    (e.defn.format.numeric = false → e.dwellCounter = 0 ∧ e.warn = .inside ∧ e.singleFired = false)

/-! ### Windows (R121, R125, R126) -/

/-- The window record that goes with an entry's state (R121), with a count that its window allows; in a LIVE cycle the
phase is CLOSED down to the count P - C and OPEN from there (R125, R126). -/
def windowFits (e : Entry) (w : Window) : Prop :=
  match e.state with
  | .empty | .defined | .failed => w = stoppedWindow
  | .armed =>
    if e.defn.arming = .timed ∧ e.defn.hasPeriod = true then w.kind = .arming ∧ w.count ≤ 5000 else w = stoppedWindow
  | .live =>
    if e.defn.hasPeriod = true then
      w.kind = .cycle ∧ w.count ≤ e.defn.periodMs ∧
      match e.phase with
      | .closed => e.defn.closedMs ≠ 0 ∧ e.defn.periodMs - e.defn.closedMs ≤ w.count
      | .opened => e.defn.closedMs = 0 ∨ w.count ≤ e.defn.periodMs - e.defn.closedMs
    else w = stoppedWindow
  | .stale => e.defn.hasPeriod = true ∧ w.kind = .stalePeriod ∧ w.count ≤ e.defn.periodMs

/-- Every window record goes with its entry. -/
def WindowLaw (s : State) : Prop := ∀ k, windowFits (s.entry k) (s.window k)

/-! ### Escalation (R148 to R158) -/

/-- The device state bounds the entry states (chapter 1, 1.4), the reason is NONE outside LOCKDOWN alone (R148), and a
reason ENTRY names a FAILED entry with reaction LOCKDOWN (R152). -/
def DeviceLaw (s : State) : Prop :=
  (s.esc.device = .configure → ∀ k, (s.entry k).state = .empty ∨ (s.entry k).state = .defined) ∧
  (s.esc.device = .supervise → ∀ k, (s.entry k).state ≠ .defined) ∧
  (s.esc.reason = .none ↔ s.esc.device ≠ .lockdown) ∧
  ∀ k, s.esc.reason = .entry k → (s.entry k).state = .failed ∧ (s.entry k).defn.reaction = .lockdown

/-- A group's failed-member set is the set of its members in FAILED (R157), and the group is TRIPPED exactly while one is
FAILED or the device is in LOCKDOWN (R151, R158, R159). -/
def GroupLaw (s : State) : Prop :=
  (∀ k : Index, s.esc.groupA.failed[k] = ((s.entry k).state == .failed && (s.entry k).defn.reaction.inGroupA)) ∧
  (∀ k : Index, s.esc.groupB.failed[k] = ((s.entry k).state == .failed && (s.entry k).defn.reaction.inGroupB)) ∧
  (s.esc.groupA.state = .tripped ↔ s.esc.device = .lockdown ∨ ∃ k : Index, s.esc.groupA.failed[k] = true) ∧
  (s.esc.groupB.state = .tripped ↔ s.esc.device = .lockdown ∨ ∃ k : Index, s.esc.groupB.failed[k] = true)

/-! ### Event latches (R166 to R173) -/

/-- An entry is in the Attention List exactly when its latched set holds one of its alert kinds, and at most once (R168);
a record with nothing latched is cleared (R173), and an EMPTY entry has nothing latched (R16). -/
def AttentionLaw (s : State) : Prop :=
  s.events.attention.Nodup ∧
  (∀ k, k ∈ s.events.attention ↔ (s.latch k).latched &&& (s.entry k).defn.alertKinds ≠ 0) ∧
  (∀ k, (s.latch k).latched = 0 → s.latch k = clearedLatch) ∧
  ∀ k, (s.entry k).state = .empty → (s.latch k).latched = 0

/-! ### The queue and the memory side (R27 to R44) -/

/-- How many accesses of slot `n` are offered, waiting in the request stage or accepted and not answered. -/
def MemorySide.inFlight (m : MemorySide) (n : SlotNo) : Nat :=
  m.stage.countP (fun a => a.tag == n) + m.outstanding.countP (fun t => t == n)

/-- What a slot's progress says of its other parts (R29, R31, R34, R37, R43). -/
def slotFits (m : MemorySide) (draining : Bool) (x : Slot) : Prop :=
  let needsMemory := x.disposition = .forward ∨ x.disposition = .substitute ∨ x.disposition = .pairWrite
  x.awaited = m.inFlight x.number ∧ x.discard = draining ∧
  match x.progress with
  | .decided => needsMemory ∧ x.awaited = 0 ∧ x.status = none
  | .issued => needsMemory ∧ 1 ≤ x.awaited ∧ x.awaited ≤ 2
  | .done => x.awaited = 0 ∧ x.status.isSome = true

/-- At most 8 slots with different numbers, each as its progress says; every access in flight belongs to a slot; and while
the queue drains it is not empty and holds ISSUED slots alone (R27, R29, R31, R32, R43, R44). -/
def QueueLaw (s : State) : Prop :=
  s.transit.slots.length ≤ Config.slotCount ∧ (s.transit.slots.map fun x => x.number).Nodup ∧
  (∀ x ∈ s.transit.slots, slotFits s.msi s.transit.draining x) ∧
  (∀ n, 0 < s.msi.inFlight n → ∃ x ∈ s.transit.slots, x.number = n) ∧
  (s.transit.draining = true → s.transit.slots ≠ [] ∧ ∀ x ∈ s.transit.slots, x.progress = .issued)

/-- A slot that waits to be issued reads exactly when it has no data (R29), none of the accesses it would make writes a
covered word of a FAILED entry, and in LOCKDOWN none reaches a covered word of an entry that is not EMPTY (R40, R41,
R42). -/
def IssueLaw (s : State) : Prop :=
  ∀ x ∈ s.transit.slots, x.progress = .decided → (x.kind = .read ↔ x.data = .none) ∧
    ∀ a ∈ x.accesses, ∀ k, (s.entry k).covers a.addr = true →
      s.esc.device ≠ .lockdown ∧ (a.op ≠ .read → (s.entry k).state ≠ .failed)

/-- While PORST_N is asserted every block holds its power-on values (R193); among them the shift registers and the bit
count of the link at 0, which is the model's choice (log 2). -/
def PorstLaw (s : State) : Prop := s.pins.porst = true → s = powerOnValues s

/-! ### Frames carried by the link rows (R178, R182) -/

/-- The command code, selector and argument of the frame that a link row stands for; none for the other rows. -/
def linkFrame : Instr → Option (Byte × Byte × Bytes8)
  | .badCommand c v a => some (c, v, a)
  | .nop v a => some (0x00#8, v, a)
  | .identify v a => some (0x01#8, v, a)
  | .deviceStatus v a => some (0x02#8, v, a)
  | .setArmingWindow v a => some (0x03#8, v, a)
  | .setPoisonWord v a => some (0x03#8, v, a)
  | .setAlertEnable v a => some (0x03#8, v, a)
  | .draftClear v a => some (0x10#8, v, a)
  | .draftSet v a => some (0x11#8, v, a)
  | .draftOmit v a => some (0x12#8, v, a)
  | .install v a => some (0x13#8, v, a)
  | .retire v a => some (0x14#8, v, a)
  | .rearm v a => some (0x15#8, v, a)
  | .readEntry v a => some (0x16#8, v, a)
  | .start v a => some (0x20#8, v, a)
  | .stop v a => some (0x21#8, v, a)
  | .lockdown v a => some (0x22#8, v, a)
  | .releaseGroup v a => some (0x23#8, v, a)
  | .forceGroup v a => some (0x24#8, v, a)
  | .collect v a => some (0x30#8, v, a)
  | .collectEntry v a => some (0x31#8, v, a)
  | .collectedPart v a => some (0x32#8, v, a)
  | .softReset v a => some (0x3F#8, v, a)
  | .writeArrival _ _ _ _ _ | .readArrival _ _ _ | .slotIssue | .memoryAccept | .memoryAnswer _ _ _ | .responseTaken
  | .processorSideReset | .prstNRelease | .powerOnReset | .porstNRelease | .tick _ | .armingExpiry _
  | .closedWindowEnd _ | .openWindowExpiry _ | .stalePeriodExpiry _ | .frameStart | .badFrame _
  | .sckRisingEdge _ | .sckFallingEdge => none

/-- The link is ready for a frame that one row carries whole: CS_N high, PORST_N not asserted (log 8). -/
def State.linkReady (s : State) : Prop := s.pins.csLow = false ∧ s.pins.porst = false

/-- The state after a whole frame has come in and CS_N has risen, before the command is taken: only the registers of the
link have changed (R177, R179). -/
def received (code sel : Byte) (arg : Bytes8) (s : State) : State := endFrame (loadFrame code sel arg s)

/-- Every block but the link's registers and the pending reply is as it was. -/
def sameButLink (s t : State) : Prop :=
  t.pins = s.pins ∧ t.transit = s.transit ∧ t.msi = s.msi ∧ t.entries = s.entries ∧ t.timer = s.timer ∧
  t.esc = s.esc ∧ t.events = s.events ∧ t.mlc.draft = s.mlc.draft ∧ t.mlc.buffer = s.mlc.buffer ∧
  t.mlc.startCause = s.mlc.startCause ∧ t.mlc.armingWindow = s.mlc.armingWindow ∧ t.mlc.poison = s.mlc.poison ∧
  t.mlc.alertEnable = s.mlc.alertEnable ∧ t.freeCount = s.freeCount ∧ t.pending = s.pending

/-- Eight bits as a byte, first bit most significant (R177). -/
def byteOf (bits : List Bool) : Byte := bits.foldl (fun c b => (c <<< 1) ||| (BitVec.ofBool b).setWidth 8) 0#8

/-- Byte `k` of a reply's data (R178). -/
def dataByte (d : Bytes8) (k : Nat) : Byte := d.extractLsb' (8 * k) 8

/-! ### The accepted ranges of DRAFT_SET (R184) -/

/-- The identifiers of R184 with the least and the greatest number each accepts. -/
def fieldRanges : List (Byte × Nat × Nat) :=
  [(0x01#8, 0, 67108863), (0x02#8, 0, 5), (0x03#8, 1, 15), (0x04#8, 0, 2 ^ 64 - 1), (0x05#8, 0, 2 ^ 64 - 1),
   (0x06#8, 0, 2 ^ 64 - 1), (0x07#8, 0, 2 ^ 64 - 1), (0x08#8, 0, 2 ^ 64 - 1), (0x09#8, 1, 8), (0x0A#8, 0, 2),
   (0x0B#8, 0, 31), (0x0C#8, 1, 65535), (0x0D#8, 0, 4294967295), (0x0E#8, 0, 4294967295), (0x0F#8, 0, 4294967295),
   (0x10#8, 0, 10), (0x11#8, 0, 3), (0x12#8, 0, 1), (0x13#8, 0, 2), (0x14#8, 0, 1), (0x15#8, 0, 2), (0x16#8, 1, 7),
   (0x17#8, 0, 4), (0x18#8, 0, 65535)]

/-- The number that stands for a field on the link, by its identifier (R184); for a limit the presence too. -/
def Definition.fieldNumber (d : Definition) (field : Byte) : Option (Bool × Nat) :=
  match field.toNat with
  | 0x01 => some (true, d.base.toNat)
  | 0x02 => some (true, d.format.code)
  | 0x03 => some (true, d.writers.toNat)
  | 0x04 => some (d.hardLow.present, d.hardLow.bytes.toNat)
  | 0x05 => some (d.hardHigh.present, d.hardHigh.bytes.toNat)
  | 0x06 => some (d.warnLow.present, d.warnLow.bytes.toNat)
  | 0x07 => some (d.warnHigh.present, d.warnHigh.bytes.toNat)
  | 0x08 => some (true, d.hysteresis.toNat)
  | 0x09 => some (true, d.dwell)
  | 0x0A => some (true, d.alarmMode.code)
  | 0x0B => some (true, d.classes.toNat)
  | 0x0C => some (true, d.maxStep)
  | 0x0D => some (true, d.stickyMask.toNat)
  | 0x0E => some (true, d.riseMask.toNat)
  | 0x0F => some (true, d.fallMask.toNat)
  | 0x10 => some (true, d.period.code)
  | 0x11 => some (true, d.closedFraction.quarters)
  | 0x12 => some (true, d.arming.code)
  | 0x13 => some (true, d.violation.code)
  | 0x14 => some (true, answerCode d.dropAnswer)
  | 0x15 => some (true, d.readPolicy.code)
  | 0x16 => some (true, d.threshold)
  | 0x17 => some (true, d.reaction.code)
  | 0x18 => some (true, d.alertKinds.toNat)
  | _ => none

/-! ### What the statements say of accesses -/

/-- The request can be accepted now, and no other request is held offered (R25, R27). -/
def State.takes (s : State) (o : Offer) : Prop :=
  s.canAccept = true ∧ (s.pins.offered = none ∨ s.pins.offered = some o)

/-- The state with one more slot at the tail and no request held; nothing else changed. -/
def State.withPlaced (s : State) (x : Slot) : State :=
  { s with pins := { s.pins with offered := none }, transit := { s.transit with slots := s.transit.slots ++ [x] } }

/-- One operation has handed entry `k` these kinds, edges and this capture candidate (R67, R68, R166, R168). -/
def handed (k : Index) (kinds : BitVec 16) (rise fall : BitVec 32) (capture : Option Capture) (s t : State) : Prop :=
  t.latch k = ⟨(s.latch k).latched ||| kinds, (s.latch k).capture.or capture, (s.latch k).rise ||| rise,
    (s.latch k).fall ||| fall⟩ ∧
  (∀ j, j ≠ k → t.latch j = s.latch j) ∧
  t.events.attention =
    (if (s.latch k).latched &&& (s.entry k).defn.alertKinds = 0 ∧
        ((s.latch k).latched ||| kinds) &&& (s.entry k).defn.alertKinds ≠ 0
     then s.events.attention ++ [k] else s.events.attention)

/-- The parts that no write and no window event touches, but for the request taken off the processor side. -/
def outsideInspection (s t : State) : Prop :=
  t.pins = { s.pins with offered := none } ∧ t.msi = s.msi ∧ t.mlc = s.mlc ∧ t.freeCount = s.freeCount ∧
  t.pending = s.pending ∧ t.transit.draining = s.transit.draining ∧ t.timer.divider = s.timer.divider

/-- A write of this request reaches the inspection of entry `k` (R47). -/
def State.inspects (s : State) (r : WriteRequest) (k : Index) : Prop :=
  s.takes (.write r) ∧ s.esc.device = .supervise ∧ s.lookup r.addr = some k ∧
    ((s.entry k).state = .armed ∨ (s.entry k).state = .live ∨ (s.entry k).state = .stale ∨ (s.entry k).state = .failed)

/-- The command of a write request. -/
def WriteRequest.command (r : WriteRequest) : Instr := .writeArrival r.initiator r.tag r.addr r.lanes r.data
/-- The command of a read request. -/
def ReadRequest.command (r : ReadRequest) : Instr := .readArrival r.initiator r.tag r.addr

/-- The word that HOLD substitutes at an address (R35, R63): the last good word, and for a REAL64 entry the half of the last
good pair that belongs to the address, low at the base and high at base + 1. A last good value of another shape than the
format's, which no run reaches, is read as the model chooses (log 20). -/
def goodWordAt (d : Definition) (a : Addr) : Value → Word
  | .pair lo hi => if d.format = .real64 ∧ a ≠ d.base then hi else lo
  | .word w => if d.format = .real64 ∧ a ≠ d.base then 0 else w

/-- The two words that HOLD substitutes for a pair, low then high (R35, R63); one word alone as log 20 says. -/
def goodPair : Value → SlotData
  | .pair lo hi => .two lo hi
  | .word w => .two w 0

/-- The slot of a faulted write as the table of R63 places it. -/
def faultedSlot (s : State) (r : WriteRequest) (k : Index) : Slot :=
  let e := s.entry k
  let base : Slot :=
    { number := s.freeSlot, initiator := r.initiator, tag := r.tag, kind := .write, addr := r.addr, lanes := r.lanes
      data := .one r.data, disposition := .dropped, entry := some k, progress := .done, awaited := 0
      status := some e.defn.dropAnswer, answerData := none, discard := false }
  let sent (d : Disposition) (w : SlotData) : Slot :=
    { base with data := w, disposition := d, progress := .decided, status := none }
  match e.defn.violation, e.lastGood, wordsReceived r (pairingStage e r) with
  | .pass, _, .word w => sent .forward (.one w)
  | .pass, _, .pair lo hi => sent .pairWrite (.two lo hi)
  | .hold, some g, .pair _ _ => sent .substitute (goodPair g)
  | .hold, some g, .word _ => sent .substitute (.one (goodWordAt e.defn r.addr g))
  | .hold, none, _ => base
  | .drop, _, _ => base

/-- The capture candidate of a faulted write (R68). -/
def candidate (e : Entry) (r : WriteRequest) (faults : BitVec 16) : Capture :=
  { words := wordsReceived r (pairingStage e r)
    half := match wordsReceived r (pairingStage e r) with
      | .pair _ _ => none
      | .word _ => if e.defn.format = .real64 then some (e.defn.halfOf r.addr) else none
    initiator := r.initiator
    kinds := faults
    cls := if faults &&& 0x0008#16 = 0 then none else (findings e (checkedValue e r (pairingStage e r))).cls }

/-- Commands run one after the other. -/
def execAll : List Instr → State → Result
  | [], s => .next s
  | i :: rest, s =>
    match exec i s with
    | .next t => execAll rest t
    | .fault f => .fault f
    | .refused r => .refused r

/-- The rows of the window events, in index order: the order in which the model takes those still due (log 6). -/
def windowRows : List Instr :=
  (List.finRange 64).flatMap fun k => [.stalePeriodExpiry k, .openWindowExpiry k, .armingExpiry k, .closedWindowEnd k]

/-- The expiry that is due at entry `k`, as its row. -/
def expiryRow (s : State) (k : Index) (i : Instr) : Prop :=
  (i = .armingExpiry k ∧ s.armingDue k = true) ∨ (i = .openWindowExpiry k ∧ s.openDue k = true) ∨
  (i = .stalePeriodExpiry k ∧ s.staleDue k = true)

/-- The values every block takes at a power-on reset (R23, R46, R136, R148, R176, R192). -/
def powerOn (t : State) : Prop :=
  t.transit = ⟨[], false⟩ ∧ t.msi = ⟨[], []⟩ ∧
  (∀ k, t.entry k = emptyEntry ∧ t.window k = stoppedWindow ∧ t.latch k = clearedLatch) ∧
  t.timer.divider = 0 ∧ t.events.attention = [] ∧
  t.esc.device = .configure ∧ t.esc.reason = .none ∧ t.esc.groupA.state = .latched ∧ t.esc.groupB.state = .latched ∧
  (∀ k : Index, t.esc.groupA.failed[k] = false ∧ t.esc.groupB.failed[k] = false) ∧
  t.mlc.frameOpen = false ∧ t.mlc.reply = ⟨.done, 0, 0⟩ ∧ t.mlc.draft = draftDefaults ∧ t.mlc.buffer = none ∧
  t.mlc.startCause = .power ∧ t.mlc.armingWindow = .ms1000 ∧ t.mlc.poison = 0xFFFFFFC0#32 ∧ t.mlc.alertEnable = true

end Sys2Proof.Machine
end

