-- ==== Sys2Proof/Certificates/Slice0/Obligations.lean ====
section
/-! DEFINITION. The statements about the MNC6408 model. A link statement is made for a frame that one row carries whole
(CS_N high, PORST_N not asserted); LinkFrameBitByBit says that the same frame sent bit by bit does the same. -/
open Sys2Proof Sys2Proof.Machine

/-! ### The queue of commands, totality, resets -/

/-- A step runs the command at the front of the queue with the queue's rest. -/
def Obligations.StepRunsTheFrontCommand : Prop :=
  ∀ (s : State) (c : Instr) (rest : List Instr), s.pending = c :: rest → step s = exec c { s with pending := rest }

/-- With no command waiting the part accepts the request held offered once it can, and idles otherwise; while BCLK is
stopped it idles (R194). That the step accepts it is the model's choice (log 3). -/
def Obligations.StepWithNothingWaiting : Prop :=
  ∀ s : State, s.pending = [] →
    (s.pins.bclkStopped = true → step s = .next s) ∧
    (s.pins.offered = none → step s = .next s) ∧
    ∀ o, s.pins.offered = some o →
      (s.canAccept = false → step s = .next s) ∧ (s.canAccept = true → step s = .next (acceptOffer o s))

/-- Every command is answered by a next state and leaves the waiting commands alone. -/
def Obligations.EveryCommandAnswersANextState : Prop :=
  ∀ (c : Instr) (s : State), ∃ t, exec c s = .next t ∧ t.pending = s.pending

/-- The state after reset: the power-on values of every block, with both fail lines asserted and ALERT_N deasserted; the
draft defaults of R2, the EMPTY entry of R8, the STOPPED record of R121 and the cleared latch record of R166, field by field.
The levels of the pins (log 1), a running BCLK (log 23) and the bytes under an absent limit (log 12) are the model's
choice. -/
def Obligations.ResetValues : Prop :=
  powerOn State.reset ∧ State.reset.failAAsserted = true ∧ State.reset.failBAsserted = true ∧
  State.reset.alertAsserted = false ∧ State.reset.pins = ⟨false, false, false, none, false⟩ ∧
  State.reset.pending = [] ∧
  draftDefaults =
    { base := 0, format := .unsigned, writers := 0b1111#4, hardLow := ⟨false, 0⟩, hardHigh := ⟨false, 0⟩, dwell := 1
      warnLow := ⟨false, 0⟩, warnHigh := ⟨false, 0⟩, hysteresis := 0, alarmMode := .edge, classes := 0b00101#5
      maxStep := 1, stickyMask := 0, riseMask := 0, fallMask := 0, period := .none, closedFraction := .pct0
      arming := .timed, violation := .drop, dropAnswer := .error, readPolicy := .poison, threshold := 3
      reaction := .groupA, alertKinds := 0x81FF#16 } ∧
  emptyEntry =
    { defn := draftDefaults, state := .empty, phase := .closed, faultCounter := 0, dwellCounter := 0, lastGood := none
      pendingHalf := none, warn := .inside, singleFired := false } ∧
  stoppedWindow = { kind := .stopped, count := 0 } ∧ clearedLatch = { latched := 0, capture := none, rise := 0, fall := 0 }

/-- A power-on reset takes every block to its power-on values from every state and keeps the levels of the other pins;
its release, and the release of PRST_N, change their pin alone. -/
def Obligations.PowerOnResetAndReleases : Prop :=
  (∀ s : State, ∃ t, exec .powerOnReset s = .next t ∧ powerOn t ∧ t.pins = { s.pins with porst := true } ∧
    t.miso = .highImpedance ∧ t.failAAsserted = true ∧ t.failBAsserted = true ∧ t.alertAsserted = false) ∧
  (∀ s : State, exec .porstNRelease s = .next { s with pins := { s.pins with porst := false } }) ∧
  (∀ s : State, exec .prstNRelease s = .next { s with pins := { s.pins with prst := false } })

/-- The assertion of PRST_N drains the queue (R43) and, in SUPERVISE alone, re-arms the ARMED, LIVE and STALE entries
(R24, R136). While PRST_N is asserted already, no further reset arrives (R193). -/
def Obligations.ProcessorSideReset : Prop :=
  (∀ s : State, s.pins.prst = true → exec .processorSideReset s = .next s) ∧
  ∀ s : State, s.pins.prst = false → ∃ t, exec .processorSideReset s = .next t ∧
    t.pins = { s.pins with prst := true } ∧
    t.transit.slots = (s.transit.slots.filter fun x => x.progress == .issued).map (fun x => { x with discard := true }) ∧
    (t.transit.draining = true ↔ t.transit.slots ≠ []) ∧
    t.msi = s.msi ∧ t.esc = s.esc ∧ t.events = s.events ∧ t.mlc = s.mlc ∧ t.freeCount = s.freeCount ∧
    t.pending = s.pending ∧ t.timer.divider = s.timer.divider ∧
    (s.esc.device ≠ .supervise → t.entries = s.entries ∧ t.timer = s.timer) ∧
    (s.esc.device = .supervise → ∀ k,
      if (s.entry k).state = .armed ∨ (s.entry k).state = .live ∨ (s.entry k).state = .stale then
        t.entry k = { s.entry k with state := .armed, phase := .closed, pendingHalf := none } ∧
        t.window k = (if (s.entry k).defn.arming = .timed ∧ (s.entry k).defn.period ≠ .none
          then ⟨.arming, s.mlc.armingWindow.ms⟩ else ⟨.stopped, 0⟩)
      else t.entry k = s.entry k ∧ t.window k = s.window k)

/-- SOFT_RESET empties the table and sets the Escalation Unit, the Event Latch block, the windows and the link's settings
back, and leaves the bus sides and the divider alone (R45, R191). -/
def Obligations.SoftResetLeavesTheBusSides : Prop :=
  ∀ (s : State) (sel : Byte) (arg : Bytes8), s.linkReady → ∃ t, exec (.softReset sel arg) s = .next t ∧
    t.pins = s.pins ∧ t.transit = s.transit ∧ t.msi = s.msi ∧ t.timer.divider = s.timer.divider ∧
    t.freeCount = s.freeCount ∧ t.pending = s.pending ∧
    (∀ k, t.entry k = emptyEntry ∧ t.window k = stoppedWindow ∧ t.latch k = clearedLatch) ∧
    t.events.attention = [] ∧ t.esc.device = .configure ∧ t.esc.reason = .none ∧
    t.esc.groupA.state = .latched ∧ t.esc.groupB.state = .latched ∧
    (∀ k : Index, t.esc.groupA.failed[k] = false ∧ t.esc.groupB.failed[k] = false) ∧
    t.mlc.reply = ⟨.done, 0, 0⟩ ∧ t.mlc.draft = draftDefaults ∧ t.mlc.buffer = none ∧ t.mlc.startCause = .soft ∧
    t.mlc.armingWindow = .ms1000 ∧ t.mlc.poison = 0xFFFFFFC0#32 ∧ t.mlc.alertEnable = true

/-! ### Acceptance and placement -/

/-- When an offered request is accepted (R27, R28, R193, R194), which slot it takes (R27), and that it stays offered otherwise.
That the one request the part sees is the one held first is the model's reading (log 3): another request that arrives while
it can be accepted arrives after its acceptance, and while it cannot does not come. -/
def Obligations.AcceptanceAndSlotNumber : Prop :=
  (∀ s : State, s.canAccept = true ↔
    s.transit.slots.length < 8 ∧ s.transit.draining = false ∧ s.pins.prst = false ∧ s.pins.porst = false ∧
    s.pins.bclkStopped = false ∧
    (s.esc.device = .configure → (∀ x ∈ s.transit.slots, x.progress ≠ .decided) ∧ s.msi.stage = [])) ∧
  (∀ s : State, s.transit.slots.length < 8 →
    (∀ x ∈ s.transit.slots, x.number ≠ s.freeSlot) ∧
    ∀ n : SlotNo, n < s.freeSlot → ∃ x ∈ s.transit.slots, x.number = n) ∧
  (∀ (s : State) (r : WriteRequest), s.canAccept = false → s.pins.offered = none ∨ s.pins.offered = some (.write r) →
    exec r.command s = .next { s with pins := { s.pins with offered := some (.write r) } }) ∧
  (∀ (s : State) (r : ReadRequest), s.canAccept = false → s.pins.offered = none ∨ s.pins.offered = some (.read r) →
    exec r.command s = .next { s with pins := { s.pins with offered := some (.read r) } }) ∧
  (∀ (s : State) (i : Instr) (o : Offer), s.canAccept = false → s.pins.offered = some o →
    (∃ r, i = WriteRequest.command r ∧ o ≠ .write r) ∨ (∃ r, i = ReadRequest.command r ∧ o ≠ .read r) →
    exec i s = .next s) ∧
  (∀ (s : State) (i : Instr) (o : Offer), s.canAccept = true → s.pins.offered = some o →
    (∃ r, i = WriteRequest.command r ∧ o ≠ .write r) ∨ (∃ r, i = ReadRequest.command r ∧ o ≠ .read r) →
    ∃ t : State, (∀ r, o = .write r → exec r.command s = .next t) ∧ (∀ r, o = .read r → exec r.command s = .next t) ∧
      t.pins.offered = none ∧ exec i s = exec i t)

/-- A write that is not inspected: in CONFIGURE it is FORWARD and issued at its acceptance (R28, R48); at a word that no
entry covers it is FORWARD with no entry index (R6); in LOCKDOWN at a covered word (R49) and at a FAILED entry in
SUPERVISE (R53) it is DROPPED with the drop answer. Nothing but the queue changes, and in CONFIGURE the request stage. And
which words an entry covers (R5), and what the Address Match Unit answers (R6). -/
def Obligations.UninspectedWrites : Prop :=
  (∀ (e : Entry) (a : Addr), e.covers a = true ↔
    e.state ≠ .empty ∧ (a = e.defn.base ∨ e.defn.format = .real64 ∧ a = e.defn.base + 1)) ∧
  (∀ (s : State) (a : Addr), s.lookup a = none ↔ ∀ k, (s.entry k).covers a = false) ∧
  (∀ (s : State) (a : Addr) (k : Index), TableLaw s → (s.lookup a = some k ↔ (s.entry k).covers a = true)) ∧
  ∀ (s : State) (r : WriteRequest), s.takes (.write r) →
    (s.esc.device = .configure →
      exec r.command s = .next { s.withPlaced
        { number := s.freeSlot, initiator := r.initiator, tag := r.tag, kind := .write, addr := r.addr, lanes := r.lanes
          data := .one r.data, disposition := .forward, entry := s.lookup r.addr, progress := .issued, awaited := 1
          status := none, answerData := none, discard := false } with
        msi := { s.msi with stage := [⟨s.freeSlot, r.addr, .write r.lanes r.data⟩] } }) ∧
    (s.esc.device ≠ .configure → s.lookup r.addr = none →
      exec r.command s = .next (s.withPlaced
        { number := s.freeSlot, initiator := r.initiator, tag := r.tag, kind := .write, addr := r.addr, lanes := r.lanes
          data := .one r.data, disposition := .forward, entry := none, progress := .decided, awaited := 0
          status := none, answerData := none, discard := false })) ∧
    (∀ k, s.lookup r.addr = some k →
      s.esc.device = .lockdown ∨ s.esc.device = .supervise ∧ (s.entry k).state = .failed →
      exec r.command s = .next (s.withPlaced
        { number := s.freeSlot, initiator := r.initiator, tag := r.tag, kind := .write, addr := r.addr, lanes := r.lanes
          data := .one r.data, disposition := .dropped, entry := some k, progress := .done, awaited := 0
          status := some (s.entry k).defn.dropAnswer, answerData := none, discard := false }))

/-- A read: FORWARD and issued at once in CONFIGURE, FORWARD at an uncovered word, and at a covered word as the tables of
R139 and R140 give. A POISONED read is DONE at placement with the pattern. Nothing but the queue changes. -/
def Obligations.ReadsArePlaced : Prop :=
  ∀ (s : State) (r : ReadRequest), s.takes (.read r) →
    let slot : Option Index → Slot := fun k =>
      { number := s.freeSlot, initiator := r.initiator, tag := r.tag, kind := .read, addr := r.addr, lanes := 15#4
        data := .none, disposition := .forward, entry := k, progress := .decided, awaited := 0, status := none
        answerData := none, discard := false }
    let poisoned : Index → Answer → Slot := fun k a =>
      { slot (some k) with
        disposition := .poisoned, progress := .done, status := some a
        answerData := some (poisonPattern (s.entry k).defn k s.mlc.poison r.addr) }
    (s.esc.device = .configure →
      exec r.command s = .next { s.withPlaced { slot (s.lookup r.addr) with progress := .issued, awaited := 1 } with
        msi := { s.msi with stage := [⟨s.freeSlot, r.addr, .read⟩] } }) ∧
    (s.esc.device ≠ .configure → s.lookup r.addr = none → exec r.command s = .next (s.withPlaced (slot none))) ∧
    (∀ k, s.esc.device = .supervise → s.lookup r.addr = some k →
      exec r.command s = .next (s.withPlaced
        (if (s.entry k).state = .stale ∨ (s.entry k).state = .failed then
          match (s.entry k).defn.readPolicy with
          | .pass => slot (some k)
          | .poison => poisoned k .okay
          | .poisonError => poisoned k .error
        else slot (some k)))) ∧
    (∀ k, s.esc.device = .lockdown → s.lookup r.addr = some k →
      exec r.command s = .next (s.withPlaced
        (match (s.entry k).defn.readPolicy with
          | .poisonError => poisoned k .error
          | .pass | .poison => poisoned k .okay)))

/-! ### Inspection -/

/-- The pairing decision of R107 and what it hands on (R57): the pending half and the words. A write that is PARTIAL or
FOREIGN, or to an entry that is not REAL64, does not reach the pairing stage (R54, R55, R113). -/
def Obligations.PairingDecision : Prop :=
  (∀ (e : Entry) (r : WriteRequest),
    e.defn.format ≠ .real64 ∨ r.lanes ≠ 15#4 ∨ e.defn.allowsWriter r.initiator = false →
    pairingStage e r = .notReached) ∧
  ∀ (e : Entry) (r : WriteRequest), e.defn.format = .real64 → r.lanes = 15#4 →
    e.defn.allowsWriter r.initiator = true →
    let h := e.defn.halfOf r.addr
    let both : Half → Word → Word × Word := fun h other =>
      match h with
      | .low => (r.data, other)
      | .high => (other, r.data)
    (h = .low ↔ r.addr = e.defn.base) ∧
    (e.pendingHalf = none → pairingStage e r = .held ⟨h, r.data, r.initiator⟩) ∧
    ∀ p, e.pendingHalf = some p →
      (p.half = h → p.initiator = r.initiator → pairingStage e r = .held ⟨h, r.data, r.initiator⟩) ∧
      (p.half ≠ h → p.initiator = r.initiator →
        pairingStage e r = .complete (both h p.word).1 (both h p.word).2) ∧
      (p.half = h → p.initiator ≠ r.initiator → pairingStage e r = .tornSame) ∧
      (p.half ≠ h → p.initiator ≠ r.initiator →
        pairingStage e r = .tornOther (both h p.word).1 (both h p.word).2)

/-- A first half, or a half written again by its own initiator, is HELD: the entry keeps it, the slot is DONE with OKAY
and no data, and nothing else changes (R57, R108, R109). -/
def Obligations.FirstHalfIsHeld : Prop :=
  ∀ (s : State) (r : WriteRequest) (k : Index), s.inspects r k → (s.entry k).state ≠ .failed →
    (s.entry k).defn.format = .real64 → r.lanes = 15#4 → (s.entry k).defn.allowsWriter r.initiator = true →
    ((s.entry k).pendingHalf = none ∨
      ∃ w, (s.entry k).pendingHalf = some ⟨(s.entry k).defn.halfOf r.addr, w, r.initiator⟩) →
    exec r.command s = .next { s.withPlaced
      { number := s.freeSlot, initiator := r.initiator, tag := r.tag, kind := .write, addr := r.addr, lanes := r.lanes
        data := .none, disposition := .held, entry := some k, progress := .done, awaited := 0, status := some .okay
        answerData := none, discard := false } with
      entries := s.entries.set k { s.entry k with
        pendingHalf := some ⟨(s.entry k).defn.halfOf r.addr, r.data, r.initiator⟩ } }

/-- Which fault kinds a write holds and how it is classified (R54, R55, R56, R57, R58, R61); the checked value and the words
acted on, by format and pairing outcome (R56, R57, R63, R68); and what the value checks and the notice stage of each format
give (R59, R60, R72, R92). The writer set holds initiator i when its bit i is set (R55, R184). `0x0008` is CLASS, `0x0004`
LIMIT, `0x0080` SEQUENCE, `0x0100` STICKY, `0x0800` RISE, `0x1000` FALL. -/
def Obligations.FaultKindsAndClassification : Prop :=
  (∀ (d : Definition) (i : Initiator), d.allowsWriter i = d.writers.getLsbD i.val) ∧
  (∀ (e : Entry) (r : WriteRequest), e.state ≠ .failed → (∀ p, pairingStage e r ≠ .held p) →
    let x := inspect e r
    let f := findings e (checkedValue e r (pairingStage e r))
    x.faults = ((if r.lanes ≠ 15#4 then 0x0040#16 else 0) |||
      (if e.defn.allowsWriter r.initiator = false then 0x0010#16 else 0) |||
      (if (pairingStage e r).isTorn = true then 0x0020#16 else 0) |||
      (if e.state = .live ∧ e.defn.period ≠ .none ∧ e.phase = .closed then 0x0001#16 else 0) ||| f.faults) ∧
    (x.classification = .faulted ↔ x.faults ≠ 0) ∧
    (x.classification = .suspect ↔ x.faults = 0 ∧ f.band = .suspect) ∧
    (x.classification = .clean ↔ x.faults = 0 ∧ f.band ≠ .suspect) ∧
    (x.faults = 0 → (checkedValue e r (pairingStage e r)).isSome = true)) ∧
  (∀ (e : Entry) (r : WriteRequest),
    let p := pairingStage e r
    (p.isTorn = true ↔ p = .tornSame ∨ ∃ lo hi, p = .tornOther lo hi) ∧
    (e.defn.format ≠ .real64 → checkedValue e r p = (if r.lanes = 15#4 then some (.word r.data) else none) ∧
      wordsReceived r p = .word r.data) ∧
    (e.defn.format = .real64 →
      (p = .notReached → checkedValue e r p = none ∧ wordsReceived r p = .word r.data) ∧
      (p = .tornSame → checkedValue e r p = none ∧ wordsReceived r p = .word r.data) ∧
      ∀ lo hi, (p = .complete lo hi → checkedValue e r p = some (.pair lo hi) ∧ wordsReceived r p = .pair lo hi) ∧
        (p = .tornOther lo hi → checkedValue e r p = none ∧ wordsReceived r p = .pair lo hi))) ∧
  (∀ e : Entry, findings e none = ⟨none, 0, .within, e.dwellCounter, e.warn, e.singleFired, 0, 0, 0⟩) ∧
  ∀ (e : Entry) (v : Value),
    let d := e.defn
    let f := findings e (some v)
    let x := readValue d.format v
    let band := bandCheck d e.dwellCounter x
    let warn := warnStage d e.warn e.singleFired x
    (d.format = .unsigned ∨ d.format = .signed ∨ d.format = .real32 ∨ d.format = .real64 →
      f.cls = readClass d.format v ∧
      f.faults = ((if classFault d (readClass d.format v) = true then 0x0008#16 else 0) |||
        (if band.1 = .limit then 0x0004#16 else 0)) ∧
      f.band = band.1 ∧ f.dwell = band.2 ∧ f.warn = warn.condition ∧ f.fired = warn.fired ∧ f.notices = warn.notices ∧
      f.rise = 0 ∧ f.fall = 0) ∧
    (d.format = .sequence → f = ⟨none, if sequenceFault d e.lastGood v = true then 0x0080#16 else 0, .within,
      e.dwellCounter, e.warn, e.singleFired, 0, 0, 0⟩) ∧
    (d.format = .flags →
      let up := riseSet d e.lastGood v
      let down := fallSet d e.lastGood v
      f = ⟨none, if stickyFault d e.lastGood v = true then 0x0100#16 else 0, .within, e.dwellCounter, e.warn,
        e.singleFired, (if up = 0 then 0 else 0x0800#16) ||| (if down = 0 then 0 else 0x1000#16), up, down⟩)

/-- A clean write (R65, R131): the value becomes the last good value and is sent to memory, both counters become 0, the
entry becomes LIVE, REVIVED is latched from STALE, and an entry with a period begins a cycle (R125). -/
def Obligations.CleanWriteEffects : Prop :=
  ∀ (s : State) (r : WriteRequest) (k : Index) (v : Value), s.inspects r k →
    (inspect (s.entry k) r).classification = .clean →
    checkedValue (s.entry k) r (pairingStage (s.entry k) r) = some v →
    let e := s.entry k
    let d := e.defn
    let f := findings e (some v)
    ∃ t, exec r.command s = .next t ∧ outsideInspection s t ∧ t.esc = s.esc ∧
      t.entries = s.entries.set k { e with
        state := .live, faultCounter := 0, dwellCounter := 0, lastGood := some v
        pendingHalf := if d.format = .real64 then none else e.pendingHalf
        warn := f.warn, singleFired := f.fired
        phase := if d.period = .none then e.phase else if d.closedMs = 0 then .opened else .closed } ∧
      t.timer.windows = (if d.period = .none then s.timer.windows else s.timer.windows.set k ⟨.cycle, d.periodMs⟩) ∧
      t.transit.slots = s.transit.slots ++ [
        { number := s.freeSlot, initiator := r.initiator, tag := r.tag, kind := .write, addr := r.addr, lanes := r.lanes
          data := match v with
            | .word w => .one w
            | .pair lo hi => .two lo hi
          disposition := match v with
            | .word _ => .forward
            | .pair _ _ => .pairWrite
          entry := some k, progress := .decided, awaited := 0, status := none, answerData := none, discard := false }] ∧
      handed k (f.notices ||| if e.state = .stale then 0x4000#16 else 0) f.rise f.fall none s t

/-- A suspect write (R64): the value is sent to memory, SUSPECT is latched, the dwell counter rises by one, the fault
counter, the last good value and the state stay, and the cycle restarts in LIVE with phase OPEN alone. -/
def Obligations.SuspectWriteEffects : Prop :=
  ∀ (s : State) (r : WriteRequest) (k : Index) (v : Value), s.inspects r k →
    (inspect (s.entry k) r).classification = .suspect →
    checkedValue (s.entry k) r (pairingStage (s.entry k) r) = some v →
    let e := s.entry k
    let d := e.defn
    let f := findings e (some v)
    let restarts := e.state = .live ∧ e.phase = .opened ∧ d.period ≠ .none
    ∃ t, exec r.command s = .next t ∧ outsideInspection s t ∧ t.esc = s.esc ∧
      t.entries = s.entries.set k { e with
        dwellCounter := e.dwellCounter + 1
        pendingHalf := if d.format = .real64 then none else e.pendingHalf
        warn := f.warn, singleFired := f.fired
        phase := if restarts then (if d.closedMs = 0 then .opened else .closed) else e.phase } ∧
      t.timer.windows = (if restarts then s.timer.windows.set k ⟨.cycle, d.periodMs⟩ else s.timer.windows) ∧
      t.transit.slots = s.transit.slots ++ [
        { number := s.freeSlot, initiator := r.initiator, tag := r.tag, kind := .write, addr := r.addr, lanes := r.lanes
          data := match v with
            | .word w => .one w
            | .pair lo hi => .two lo hi
          disposition := match v with
            | .word _ => .forward
            | .pair _ _ => .pairWrite
          entry := some k, progress := .decided, awaited := 0, status := none, answerData := none, discard := false }] ∧
      handed k (f.notices ||| 0x2000#16) f.rise f.fall none s t

/-- A faulted write that does not reach the fail threshold (R62, R63, R67, R68): the counter rises by one, state and last
good value stay, EARLY alone restarts the cycle, and the slot is the one of the violation action. Under HOLD a REAL64
entry's slot takes the low half of the last good pair at its base, the high half at base + 1, and both for a pair judged as
a whole (R35). -/
def Obligations.FaultedWriteEffects : Prop :=
  (∀ (s : State) (r : WriteRequest) (k : Index) (lo hi : Word),
    let e := s.entry k
    let received := wordsReceived r (pairingStage e r)
    e.defn.violation = .hold → e.defn.format = .real64 → e.lastGood = some (.pair lo hi) →
    (faultedSlot s r k).disposition = .substitute ∧ (faultedSlot s r k).progress = .decided ∧
    (∀ w, received = .word w → r.addr = e.defn.base → (faultedSlot s r k).data = .one lo) ∧
    (∀ w, received = .word w → r.addr = e.defn.base + 1 → (faultedSlot s r k).data = .one hi) ∧
    (∀ a b, received = .pair a b → (faultedSlot s r k).data = .two lo hi)) ∧
  ∀ (s : State) (r : WriteRequest) (k : Index), s.inspects r k →
    (inspect (s.entry k) r).classification = .faulted →
    (s.entry k).faultCounter + 1 ≠ (s.entry k).defn.threshold →
    let e := s.entry k
    let d := e.defn
    let p := pairingStage e r
    let f := findings e (checkedValue e r p)
    let faults := (inspect e r).faults
    let early := e.state = .live ∧ d.period ≠ .none ∧ e.phase = .closed
    ∃ t, exec r.command s = .next t ∧ outsideInspection s t ∧ t.esc = s.esc ∧
      t.entries = s.entries.set k { e with
        faultCounter := e.faultCounter + 1, dwellCounter := f.dwell, warn := f.warn, singleFired := f.fired
        pendingHalf := if p = .notReached then e.pendingHalf else none
        phase := if early then (if d.closedMs = 0 then .opened else .closed) else e.phase } ∧
      t.timer.windows = (if early then s.timer.windows.set k ⟨.cycle, d.periodMs⟩ else s.timer.windows) ∧
      t.transit.slots = s.transit.slots ++ [faultedSlot s r k] ∧
      handed k (faults ||| f.notices) f.rise f.fall (some (candidate e r faults)) s t

/-- A faulted write that reaches the fail threshold (R66): the entry becomes FAILED, its window stops, FAILED is latched
with the write's kinds, and TORN when a pending half was left; the reaction acts on the groups as R155 tells, and the write's
slot is among those that the failure converts (R40, R63). With reaction LOCKDOWN the entry into LOCKDOWN follows. -/
def Obligations.FaultedWriteReachesThreshold : Prop :=
  ∀ (s : State) (r : WriteRequest) (k : Index), s.inspects r k →
    (inspect (s.entry k) r).classification = .faulted →
    (s.entry k).faultCounter + 1 = (s.entry k).defn.threshold →
    let e := s.entry k
    let d := e.defn
    let p := pairingStage e r
    let f := findings e (checkedValue e r p)
    let faults := (inspect e r).faults
    let left := if p = .notReached then e.pendingHalf else none
    let failed : Entry := { e with
      state := .failed, faultCounter := d.threshold, dwellCounter := f.dwell, warn := f.warn, singleFired := f.fired
      pendingHalf := none }
    let slots := (s.transit.slots ++ [faultedSlot s r k]).map (convertForFailure k failed s.mlc.poison)
    let hitA : Group := ⟨.tripped, s.esc.groupA.failed.set k true⟩
    let hitB : Group := ⟨.tripped, s.esc.groupB.failed.set k true⟩
    ∃ t, exec r.command s = .next t ∧ outsideInspection s t ∧
      t.entry k = failed ∧ t.timer.windows = s.timer.windows.set k ⟨.stopped, 0⟩ ∧
      handed k (faults ||| f.notices ||| 0x8000#16 ||| if left = none then 0 else 0x0020#16) f.rise f.fall
        (some (candidate e r faults)) s t ∧
      (d.reaction ≠ .lockdown →
        (∀ j, j ≠ k → t.entry j = s.entry j) ∧ t.transit.slots = slots) ∧
      (d.reaction = .note → t.esc = s.esc) ∧
      (d.reaction = .groupA → t.esc = ⟨s.esc.device, s.esc.reason, hitA, s.esc.groupB⟩) ∧
      (d.reaction = .groupB → t.esc = ⟨s.esc.device, s.esc.reason, s.esc.groupA, hitB⟩) ∧
      (d.reaction = .groupAB → t.esc = ⟨s.esc.device, s.esc.reason, hitA, hitB⟩) ∧
      (d.reaction = .lockdown →
        (∀ j, j ≠ k → t.entry j = { s.entry j with pendingHalf := none }) ∧
        t.transit.slots = slots.map (convertForLockdown t) ∧ t.esc = ⟨.lockdown, .entry k, hitA, hitB⟩)

/-! ### Value checks (chapters 4 and 5) -/

/-- How a word, a pair and a limit are read (R73, R74, R75, R76, R79, R81): the fields of the real encodings and the exact
number of each, in units of 2^-1074 (log 18); the order of the values that are compared (R73, R74, R80); the class of a real
value, from its own encoding (R77); the CLASS check (R82) with the bits of the allowed classes (R184), and the hard band with its
dwell (R83, R84). Which formats are numeric (R72). -/
def Obligations.ValuesClassAndBand : Prop :=
  ((∀ w : Word, exponent32 w = w.toNat / 2 ^ 23 % 2 ^ 8 ∧ fraction32 w = w.toNat % 2 ^ 23) ∧
  (∀ w : Word, exponent32 w ≤ 254 → num32 w = .fin ((if w.msb then -1 else 1) *
    ((if exponent32 w = 0 then fraction32 w else (2 ^ 23 + fraction32 w) * 2 ^ (exponent32 w - 1)) * 2 ^ 925 : Nat))) ∧
  (∀ w : Word, exponent32 w = 255 →
    num32 w = if fraction32 w = 0 then (if w.msb then .negInf else .posInf) else .nan) ∧
  (∀ x : Bytes8, exponent64 x = x.toNat / 2 ^ 52 % 2 ^ 11 ∧ fraction64 x = x.toNat % 2 ^ 52) ∧
  (∀ x : Bytes8, exponent64 x ≤ 2046 → num64 x = .fin ((if x.msb then -1 else 1) *
    (if exponent64 x = 0 then fraction64 x else (2 ^ 52 + fraction64 x) * 2 ^ (exponent64 x - 1) : Nat))) ∧
  (∀ x : Bytes8, exponent64 x = 2047 →
    num64 x = if fraction64 x = 0 then (if x.msb then .negInf else .posInf) else .nan) ∧
  num32 0x80000000#32 = num32 0x00000000#32 ∧ num64 0x8000000000000000#64 = num64 0x0000000000000000#64) ∧
  ((∀ w : Word, readValue .unsigned (.word w) = .fin w.toNat ∧ readValue .signed (.word w) = .fin w.toInt ∧
    readValue .real32 (.word w) = num32 w ∧ readClass .real32 (.word w) = some (class32 w)) ∧
  (∀ lo hi : Word, ∃ x : Bytes8, x.extractLsb' 0 32 = lo ∧ x.extractLsb' 32 32 = hi ∧
    readValue .real64 (.pair lo hi) = num64 x ∧ readClass .real64 (.pair lo hi) = some (class64 x)) ∧
  (∀ (f : Format) (v : Value), f ≠ .real32 → f ≠ .real64 → readClass f v = none) ∧
  (∀ (f : Format) (b : Bytes8), Limit.number f ⟨false, b⟩ = none ∧
    (f = .unsigned ∨ f = .signed → Limit.number f ⟨true, b⟩ = some (.fin b.toInt)) ∧
    (f = .real32 ∨ f = .real64 → Limit.number f ⟨true, b⟩ = some (num64 b)))) ∧
  ((∀ a b : Int, (Machine.Num.fin a).below (.fin b) = decide (a < b)) ∧
  (∀ x : Machine.Num, x ≠ .nan → x ≠ .negInf → Machine.Num.below .negInf x = true) ∧
  (∀ x : Machine.Num, x ≠ .nan → x ≠ .posInf → x.below .posInf = true) ∧
  (∀ x : Machine.Num, x.below .negInf = false ∧ Machine.Num.below .posInf x = false) ∧
  (∀ x : Machine.Num, x.below .nan = false ∧ Machine.Num.below .nan x = false ∧ x.below x = false)) ∧
  ((∀ w : Word, class32 w = classOf 255 (exponent32 w) (fraction32 w)) ∧
  (∀ x : Bytes8, class64 x = classOf 2047 (exponent64 x) (fraction64 x)) ∧
  (∀ eMax e f : Nat, 0 < eMax →
    (classOf eMax e f = .zero ↔ e = 0 ∧ f = 0) ∧ (classOf eMax e f = .subnormal ↔ e = 0 ∧ f ≠ 0) ∧
    (classOf eMax e f = .normal ↔ e ≠ 0 ∧ e ≠ eMax) ∧
    (classOf eMax e f = .infinite ↔ e = eMax ∧ f = 0) ∧ (classOf eMax e f = .nan ↔ e = eMax ∧ f ≠ 0)) ∧
  (∀ d : Definition, classFault d none = false ∧ ∀ c : RealClass, classFault d (some c) = !d.allowsClass c) ∧
  (∀ (d : Definition) (c : RealClass), d.allowsClass c = d.classes.getLsbD (match c with
    | .zero => 0 | .subnormal => 1 | .normal => 2 | .infinite => 3 | .nan => 4)) ∧
  (∀ f : Format, f.numeric = true ↔ f = .unsigned ∨ f = .signed ∨ f = .real32 ∨ f = .real64)) ∧
  (∀ (d : Definition) (n : Nat) (x : Machine.Num), 1 ≤ d.dwell → n ≤ d.dwell →
    let out := (∃ l, d.hardLow.number d.format = some l ∧ x.below l = true) ∨
      (∃ h, d.hardHigh.number d.format = some h ∧ h.below x = true)
    (x = .nan → bandCheck d n x = (.within, n)) ∧
    (x ≠ .nan → ¬ out → bandCheck d n x = (.within, 0)) ∧
    (out → n + 1 < d.dwell → bandCheck d n x = (.suspect, n + 1)) ∧
    (out → n + 1 = d.dwell ∨ n = d.dwell → bandCheck d n x = (.limit, d.dwell)))

/-- The step of a SEQUENCE value (R87), the sticky bits and the edges of a FLAGS value (R89, R90). -/
def Obligations.SequenceAndFlagsChecks : Prop :=
  (∀ (d : Definition) (v : Value), sequenceFault d none v = false ∧ stickyFault d none v = false ∧
    riseSet d none v = 0 ∧ fallSet d none v = 0) ∧
  (∀ (d : Definition) (g w : Word),
    (sequenceFault d (some (.word g)) (.word w) = false ↔ ∃ n : Nat, 1 ≤ n ∧ n ≤ d.maxStep ∧ n < 2 ^ 32 ∧
      w = g + BitVec.ofNat 32 n)) ∧
  (∀ (d : Definition) (g w : Word),
    (stickyFault d (some (.word g)) (.word w) = true ↔
      ∃ b : Nat, d.stickyMask.getLsbD b = true ∧ g.getLsbD b = true ∧ w.getLsbD b = false) ∧
    ∀ b : Nat, ((riseSet d (some (.word g)) (.word w)).getLsbD b =
        (d.riseMask.getLsbD b && !g.getLsbD b && w.getLsbD b)) ∧
      ((fallSet d (some (.word g)) (.word w)).getLsbD b = (d.fallMask.getLsbD b && g.getLsbD b && !w.getLsbD b)))

/-- The warning stage: the warn band of R94, the return band of R95 (the warn band narrowed by the hysteresis, exactly, an
infinite limit staying the same infinity), the condition of R96, the notices of each alarm mode (R98, R99, R100), and a NaN
passed by (R97). `0x0200` is WARN and `0x0400` WARN_BACK. INSTALL admits no hysteresis that is not finite (R4); the 0 for
one is the model's choice (log 20). -/
def Obligations.WarningStageTable : Prop :=
  ∀ (d : Definition) (w : WarnCondition) (fired : Bool) (x : Machine.Num),
    let hysteresis : Int := match d.format with
      | .real32 | .real64 => (match num64 d.hysteresis with
        | .fin h => h
        | .negInf | .posInf | .nan => 0)
      | .unsigned | .signed | .sequence | .flags => d.hysteresis.toInt
    let shifted : Machine.Num → Int → Machine.Num := fun l n => match l with
      | .fin a => .fin (a + n)
      | .negInf => .negInf
      | .posInf => .posInf
      | .nan => .nan
    let low := d.warnLow.number d.format
    let high := d.warnHigh.number d.format
    let out := low.any (fun l => x.below l) || high.any (fun h => h.below x)
    let back := low.all (fun l => !x.below (shifted l hysteresis)) && high.all (fun h => !(shifted h (-hysteresis)).below x)
    let r := warnStage d w fired x
    (x = .nan → r = ⟨w, fired, 0⟩) ∧
    (x ≠ .nan →
      (out = true → r.condition = .outside) ∧
      (out = false → w = .inside → r.condition = .inside) ∧
      (out = false → w = .outside → r.condition = if back = true then .inside else .outside) ∧
      (d.alarmMode = .level → r.fired = fired ∧ r.notices =
        (if out = true then 0x0200#16 else if w = .outside ∧ back = true then 0x0400#16 else 0)) ∧
      (d.alarmMode = .edge → r.fired = fired ∧ r.notices =
        (if out = true ∧ w = .inside then 0x0200#16
         else if out = false ∧ w = .outside ∧ back = true then 0x0400#16 else 0)) ∧
      (d.alarmMode = .single →
        (fired = true → r.fired = true ∧ r.notices = 0) ∧
        (fired = false → out = true ∧ w = .inside → r.fired = true ∧ r.notices = 0x0200#16) ∧
        (fired = false → ¬ (out = true ∧ w = .inside) → r.fired = false ∧ r.notices = 0)))

/-- The poison patterns (R143): a quiet NaN carrying the index for the real formats, the poison word with its six lowest
bits replaced by the index for the others. -/
def Obligations.PoisonPatterns : Prop :=
  ∀ (d : Definition) (k : Index) (poison : Word) (a : Addr),
    (d.format = .real32 → poisonPattern d k poison a = 0x7FC00000#32 + BitVec.ofNat 32 k.val ∧
      class32 (poisonPattern d k poison a) = .nan ∧ (poisonPattern d k poison a).getLsbD 22 = true ∧
      (poisonPattern d k poison a).msb = false) ∧
    (d.format = .real64 → a = d.base → poisonPattern d k poison a = BitVec.ofNat 32 k.val) ∧
    (d.format = .real64 → a = d.base + 1 → poisonPattern d k poison a = 0x7FF80000#32) ∧
    (d.format = .unsigned ∨ d.format = .signed ∨ d.format = .sequence ∨ d.format = .flags →
      poisonPattern d k poison a = (poison &&& 0xFFFFFFC0#32) + BitVec.ofNat 32 k.val ∧
      ∀ b : Nat, (poisonPattern d k poison a).getLsbD b =
        if b < 6 then (BitVec.ofNat 32 k.val).getLsbD b else poison.getLsbD b) ∧
    (d.format = .unsigned ∨ d.format = .signed ∨ d.format = .sequence ∨ d.format = .flags → poison = 0xFFFFFFC0#32 →
      (poisonPattern d k poison a).toNat = 4294967232 + k.val ∧ (poisonPattern d k poison a).toInt = -64 + k.val)

/-! ### The way of a slot -/

/-- SLOT_ISSUE hands the oldest DECIDED slot to the empty request stage and changes nothing else (R31, R32, R34 to R36);
MEMORY_ACCEPT counts the access offered and offers the next (R32). With nothing to issue or to accept, or with BCLK stopped
(R194), neither event comes: that such a command leaves the state as it is, is the model's choice (log 4). -/
def Obligations.IssueAndAccept : Prop :=
  (∀ (s : State) (before : List Slot) (x : Slot) (behind : List Slot), s.pins.bclkStopped = false →
    s.msi.stage = [] → s.transit.slots = before ++ x :: behind → (∀ y ∈ before, y.progress ≠ .decided) →
    x.progress = .decided →
    exec .slotIssue s = .next { s with
      transit := { s.transit with
        slots := before ++ { x with progress := .issued, awaited := x.accesses.length } :: behind }
      msi := { s.msi with stage := x.accesses } }) ∧
  (∀ s : State, s.pins.bclkStopped = true ∨ s.msi.stage ≠ [] ∨ (∀ x ∈ s.transit.slots, x.progress ≠ .decided) →
    exec .slotIssue s = .next s) ∧
  (∀ x : Slot,
    (x.kind = .read → x.data = .none → x.accesses = [⟨x.number, x.addr, .read⟩]) ∧
    (∀ w, x.data = .one w → x.disposition = .forward → x.accesses = [⟨x.number, x.addr, .write x.lanes w⟩]) ∧
    (∀ w, x.data = .one w → x.disposition = .substitute → x.accesses = [⟨x.number, x.addr, .write 15#4 w⟩]) ∧
    (∀ lo hi base, x.data = .two lo hi → base.getLsbD 0 = false → x.addr = base ∨ x.addr = base + 1 →
      x.accesses = [⟨x.number, base, .write 15#4 lo⟩, ⟨x.number, base + 1, .write 15#4 hi⟩])) ∧
  (∀ (s : State) (a : Access) (rest : List Access), s.pins.bclkStopped = false → s.msi.stage = a :: rest →
    s.memoryOffer = some a ∧ exec .memoryAccept s = .next { s with msi := ⟨rest, s.msi.outstanding ++ [a.tag]⟩ }) ∧
  (∀ s : State, s.pins.bclkStopped = true ∨ s.msi.stage = [] →
    s.memoryOffer = none ∧ exec .memoryAccept s = .next s)

/-- A memory answer is taken for the oldest outstanding access, with a wrong tag read as ERROR; the slot is DONE with its
last answer (R33 to R36). That a slot of two accesses holds the joined status before its last answer is the model's reading
(log 14). While the queue drains the slot leaves instead, and the drain ends with the last (R44). While BCLK is stopped no
answer is taken (R194): that the command then leaves the state as it is, is the model's choice (log 23). -/
def Obligations.MemoryAnswerReachesItsSlot : Prop :=
  (∀ (s : State) (tag : SlotNo) (st : Answer) (data : Word),
    s.pins.bclkStopped = true ∨ s.msi.outstanding = [] → exec (.memoryAnswer tag st data) s = .next s) ∧
  ∀ (s : State) (tag : SlotNo) (st : Answer) (data : Word) (n : SlotNo) (rest : List SlotNo)
    (before : List Slot) (x : Slot) (behind : List Slot), s.pins.bclkStopped = false → QueueLaw s →
    s.msi.outstanding = n :: rest →
    s.transit.slots = before ++ x :: behind → x.number = n →
    let now := if tag = n then st else .error
    let x' : Slot := { x with
      awaited := x.awaited - 1
      status := some (if x.status = some .error ∨ now = .error then .error else .okay)
      answerData := match x.kind with
        | .read => some data
        | .write => x.answerData
      progress := if x.awaited = 1 then .done else .issued }
    let slots := if s.transit.draining = true ∧ x.awaited = 1 then before ++ behind else before ++ x' :: behind
    exec (.memoryAnswer tag st data) s = .next { s with
      msi := { s.msi with outstanding := rest }
      transit := ⟨slots, s.transit.draining && !slots.isEmpty⟩ }

/-- The response offered is that of a DONE slot at the head; when it is taken the slot leaves and nothing else changes
(R39). While BCLK is stopped none is released (R194, log 23). With none offered the event does not come: that such a command
leaves the state as it is, is the model's choice (log 4). -/
def Obligations.ResponseTakenReleasesTheHead : Prop :=
  (∀ (s : State) (x : Slot) (rest : List Slot) (st : Answer), s.pins.bclkStopped = false →
    s.transit.slots = x :: rest → x.progress = .done → x.status = some st →
    s.responseOffer = some ⟨x.initiator, x.tag, st, x.answerData⟩ ∧
    exec .responseTaken s = .next { s with transit := { s.transit with slots := rest } }) ∧
  ∀ s : State, s.pins.bclkStopped = true ∨ (∀ x rest, s.transit.slots = x :: rest → x.progress ≠ .done) →
    s.responseOffer = none ∧ exec .responseTaken s = .next s

/-- The two conversions slot by slot: R40 at the words of a failed entry, R41 at every supervised word. A slot is found at
its word address and at every word its accesses would reach, so that no write to such a word is issued afterwards (R42); that
a two-word slot is found at the other word of its pair too, and by whose entry it is then answered, is read from R42
(log 22). -/
def Obligations.ConversionTables : Prop :=
  (∀ (k : Index) (e : Entry) (poison : Word) (x : Slot),
    let dropped : Slot := { x with
      disposition := .dropped, entry := some k, progress := .done, awaited := 0, status := some e.defn.dropAnswer
      answerData := none }
    let poisoned (a : Answer) : Slot := { x with
      disposition := .poisoned, entry := some k, progress := .done, awaited := 0, status := some a
      answerData := some (poisonPattern e.defn k poison x.addr) }
    let found := e.covers x.addr = true ∨ ∃ a ∈ x.accesses, e.covers a.addr = true
    (x.progress ≠ .decided ∨ ¬ found → convertForFailure k e poison x = x) ∧
    (x.progress = .decided → found →
      (x.kind = .write → convertForFailure k e poison x = dropped) ∧
      (x.kind = .read → e.defn.readPolicy = .pass → convertForFailure k e poison x = x) ∧
      (x.kind = .read → e.defn.readPolicy = .poison → convertForFailure k e poison x = poisoned .okay) ∧
      (x.kind = .read → e.defn.readPolicy = .poisonError → convertForFailure k e poison x = poisoned .error))) ∧
  ∀ (s : State) (x : Slot),
    let converted (k : Index) : Prop :=
      let d := (s.entry k).defn
      (x.kind = .write → convertForLockdown s x = { x with
        disposition := .dropped, entry := some k, progress := .done, awaited := 0, status := some d.dropAnswer
        answerData := none }) ∧
      (x.kind = .read → convertForLockdown s x = { x with
        disposition := .poisoned, entry := some k, progress := .done, awaited := 0
        status := some (if d.readPolicy = .poisonError then .error else .okay)
        answerData := some (poisonPattern d k s.mlc.poison x.addr) })
    (x.progress ≠ .decided ∨ (s.lookup x.addr = none ∧ ∀ a ∈ x.accesses, s.lookup a.addr = none) →
      convertForLockdown s x = x) ∧
    (x.progress = .decided →
      (∀ k, s.lookup x.addr = some k → converted k) ∧
      (s.lookup x.addr = none → (∃ a ∈ x.accesses, s.lookup a.addr ≠ none) →
        ∃ a ∈ x.accesses, ∃ k, s.lookup a.addr = some k ∧ converted k))

/-! ### Windows -/

/-- TICK: the divider counts REFCLK periods, and each 4,096 lower every running window by one in SUPERVISE (R120, R122,
R134, R135). Where an event of the tick before is still due, the model takes the window rows in index order first and lowers
the windows then: that they come first and in this order is its choice (log 6). -/
def Obligations.TickLowersRunningWindows : Prop :=
  (∀ (s : State) (n : Nat), s.pins.porst = true → exec (.tick n) s = .next s) ∧
  (∀ (s : State) (n : Nat), s.pins.porst = false → s.timer.divider + n < 4096 →
    exec (.tick n) s = .next { s with timer := { s.timer with divider := s.timer.divider + n } }) ∧
  (∀ (s : State) (n : Nat), s.pins.porst = false → s.esc.device ≠ .supervise →
    exec (.tick n) s = .next { s with timer := { s.timer with divider := (s.timer.divider + n) % 4096 } }) ∧
  (∀ (s : State) (n : Nat), s.pins.porst = false → s.esc.device = .supervise → 4096 ≤ s.timer.divider + n →
    s.timer.divider + n < 8192 →
    (∀ k, s.armingDue k = false ∧ s.closedEndDue k = false ∧ s.openDue k = false ∧ s.staleDue k = false) →
    ∃ w : Vector Window 64,
      exec (.tick n) s = .next { s with timer := ⟨s.timer.divider + n - 4096, w⟩ } ∧
      ∀ k : Index, w[k] =
        if (s.window k).kind = .stopped then s.window k else ⟨(s.window k).kind, (s.window k).count - 1⟩) ∧
  ∀ (s : State) (n : Nat), s.pins.porst = false → s.esc.device = .supervise → 4096 ≤ s.timer.divider + n →
    s.timer.divider + n < 8192 →
    ∃ (u : State) (w : Vector Window 64),
      execAll windowRows { s with timer := { s.timer with divider := s.timer.divider + n - 4096 } } = .next u ∧
      exec (.tick n) s = .next { u with timer := ⟨s.timer.divider + n - 4096, w⟩ } ∧
      ∀ k : Index, w[k] =
        if u.esc.device ≠ .supervise ∨ (u.window k).kind = .stopped then u.window k
        else ⟨(u.window k).kind, (u.window k).count - 1⟩

/-- An expiry counts one LATE, discards a pending half with TORN latched and begins a stale period (R115, R124, R129,
R130); at the fail threshold the entry becomes FAILED, its record STOPPED, and the failure is taken (R132, R155). -/
def Obligations.ExpiryCountsALate : Prop :=
  ∀ (s : State) (k : Index) (i : Instr), expiryRow s k i →
    let e := s.entry k
    let torn : BitVec 16 := if e.pendingHalf = none then 0 else 0x0020#16
    ∃ t, exec i s = .next t ∧ t.pins = s.pins ∧ t.msi = s.msi ∧ t.mlc = s.mlc ∧ t.freeCount = s.freeCount ∧
      t.pending = s.pending ∧ t.timer.divider = s.timer.divider ∧
      (e.faultCounter + 1 ≠ e.defn.threshold →
        t.entries = s.entries.set k { e with state := .stale, faultCounter := e.faultCounter + 1, pendingHalf := none } ∧
        t.timer.windows = s.timer.windows.set k ⟨.stalePeriod, e.defn.periodMs⟩ ∧
        handed k (0x0002#16 ||| torn) 0 0 none s t ∧ t.esc = s.esc ∧ t.transit = s.transit) ∧
      (e.faultCounter + 1 = e.defn.threshold →
        let failed : Entry := { e with state := .failed, faultCounter := e.defn.threshold, pendingHalf := none }
        let slots := s.transit.slots.map (convertForFailure k failed s.mlc.poison)
        let hitA : Group := ⟨.tripped, s.esc.groupA.failed.set k true⟩
        let hitB : Group := ⟨.tripped, s.esc.groupB.failed.set k true⟩
        t.entry k = failed ∧ t.timer.windows = s.timer.windows.set k ⟨.stopped, 0⟩ ∧
        handed k (0x8002#16 ||| torn) 0 0 none s t ∧ t.transit.draining = s.transit.draining ∧
        (e.defn.reaction ≠ .lockdown →
          (∀ j, j ≠ k → t.entry j = s.entry j) ∧ t.transit.slots = slots) ∧
        (e.defn.reaction = .note → t.esc = s.esc) ∧
        (e.defn.reaction = .groupA → t.esc = ⟨s.esc.device, s.esc.reason, hitA, s.esc.groupB⟩) ∧
        (e.defn.reaction = .groupB → t.esc = ⟨s.esc.device, s.esc.reason, s.esc.groupA, hitB⟩) ∧
        (e.defn.reaction = .groupAB → t.esc = ⟨s.esc.device, s.esc.reason, hitA, hitB⟩) ∧
        (e.defn.reaction = .lockdown →
          (∀ j, j ≠ k → t.entry j = { s.entry j with pendingHalf := none }) ∧
          t.transit.slots = slots.map (convertForLockdown t) ∧ t.esc = ⟨.lockdown, .entry k, hitA, hitB⟩))

/-- The end of a closed window opens the phase and changes nothing else (R126); a window event that is not due does not
come (log 4, the model's choice). -/
def Obligations.ClosedWindowEndOpensThePhase : Prop :=
  (∀ (s : State) (k : Index), s.esc.device = .supervise → (s.entry k).state = .live → (s.entry k).phase = .closed →
    (s.entry k).defn.closedMs ≠ 0 →
    s.window k = ⟨.cycle, (s.entry k).defn.periodMs - (s.entry k).defn.closedMs⟩ →
    exec (.closedWindowEnd k) s = .next { s with entries := s.entries.set k { s.entry k with phase := .opened } }) ∧
  (∀ (s : State) (k : Index),
    (s.closedEndDue k = false → exec (.closedWindowEnd k) s = .next s) ∧
    (s.armingDue k = false → exec (.armingExpiry k) s = .next s) ∧
    (s.openDue k = false → exec (.openWindowExpiry k) s = .next s) ∧
    (s.staleDue k = false → exec (.stalePeriodExpiry k) s = .next s))

/-- When an expiry is due (R122, R124, R129, R130), the lengths of the windows (R123) and of the closed window (R125). -/
def Obligations.WindowLengths : Prop :=
  (∀ (s : State) (k : Index),
    (s.armingDue k = true ↔ s.esc.device = .supervise ∧ s.window k = ⟨.arming, 0⟩ ∧ (s.entry k).state = .armed) ∧
    (s.openDue k = true ↔ s.esc.device = .supervise ∧ s.window k = ⟨.cycle, 0⟩ ∧ (s.entry k).state = .live) ∧
    (s.staleDue k = true ↔ s.esc.device = .supervise ∧ s.window k = ⟨.stalePeriod, 0⟩ ∧ (s.entry k).state = .stale)) ∧
  (∀ d : Definition, d.closedMs = d.periodMs * (match d.closedFraction with
      | .pct0 => 0 | .pct25 => 25 | .pct50 => 50 | .pct75 => 75) / 100 ∧
    (d.period ≠ .none → d.closedMs < d.periodMs)) ∧
  (∀ d : Definition, d.periodMs = match d.period with
    | .none => 0 | .ms1 => 1 | .ms2 => 2 | .ms5 => 5 | .ms10 => 10 | .ms20 => 20 | .ms50 => 50 | .ms100 => 100
    | .ms200 => 200 | .ms500 => 500 | .ms1000 => 1000) ∧
  ∀ (d : Definition) (a : ArmingWindow), armingWindowFor d a =
    if d.arming = .timed ∧ d.period ≠ .none then
      ⟨.arming, (match a with
        | .ms100 => 100 | .ms200 => 200 | .ms500 => 500 | .ms1000 => 1000 | .ms2000 => 2000 | .ms5000 => 5000)⟩
    else ⟨.stopped, 0⟩

/-! ### The link -/

/-- CS_N falling, SCK rising and falling (R177, R192; log 24 for the rest of an abandoned frame), also as the steps of a
frame that is sent bit by bit; the bytes of a frame and of a reply, the codes of its status and the CRC-8 (R178, R181),
also on the bytes that the manual works out. -/
def Obligations.LinkSignalling : Prop :=
  (∀ r : Reply, r.word.extractLsb' 80 8 = (match r.status with
      | .done => 0x00#8 | .badFrame => 0x01#8 | .badCommand => 0x02#8 | .badField => 0x03#8 | .badState => 0x04#8
      | .overlap => 0x05#8 | .failPresent => 0x06#8 | .emptyList => 0x07#8) ∧
    r.word.extractLsb' 72 8 = r.echo ∧ (∀ k : Nat, k < 8 → r.word.extractLsb' (64 - 8 * k) 8 = dataByte r.data k) ∧
    r.word.extractLsb' 0 8 = crc8 (bitsOf (r.word.extractLsb' 8 80))) ∧
  (∀ (first second : Byte) (data : Bytes8),
    let x := frameWord first second data
    x.extractLsb' 80 8 = first ∧ x.extractLsb' 72 8 = second ∧
    (∀ k : Nat, k < 8 → x.extractLsb' (64 - 8 * k) 8 = dataByte data k) ∧
    x.extractLsb' 0 8 = crc8 (bitsOf (x.extractLsb' 8 80))) ∧
  (∀ (n : Nat) (w : BitVec n), (bitsOf w).length = n ∧ ∀ k : Nat, k < n → (bitsOf w)[k]? = some (w.getMsbD k)) ∧
  (crc8 [] = 0#8 ∧ ∀ (bits : List Bool) (b : Bool), crc8 (bits ++ [b]) =
    if (crc8 bits).msb = b then crc8 bits <<< 1 else (crc8 bits <<< 1) ^^^ 0x07#8) ∧
  (∀ s : State, s.pins.csLow = false → exec .frameStart s = .next (beginFrame s)) ∧
  (∀ s : State, shiftBits [] s = s ∧ ∀ (b : Bool) (bits : List Bool), ∃ t u : State,
    exec (.sckRisingEdge b) s = .next t ∧ exec .sckFallingEdge t = .next u ∧ shiftBits (b :: bits) s = shiftBits bits u) ∧
  (crc8 ("123456789".toList.flatMap fun c => bitsOf (BitVec.ofNat 8 c.toNat)) = 0xF4#8 ∧
    crc8 (List.replicate 80 false) = 0#8 ∧
    (⟨.done, 0x01#8, 0x0008400164084F4B#64⟩ : Reply).word.extractLsb' 8 80 = 0x00014B4F086401400800#80 ∧
    frameWord 0#8 0#8 0#64 = 0#88) ∧
  (∀ s : State, s.pins.csLow = false → s.pins.porst = false →
    exec .frameStart s = .next { s with
      pins := { s.pins with csLow := true }
      mlc := { s.mlc with frameOpen := true, bitCount := 0, outReg := s.mlc.reply.word } }) ∧
  (∀ s : State, s.pins.csLow = false → s.pins.porst = true →
    exec .frameStart s = .next { s with
      pins := { s.pins with csLow := true }, mlc := { s.mlc with frameOpen := false } }) ∧
  (∀ (s : State) (b : Bool), s.pins.csLow = true → s.mlc.frameOpen = true → ∃ reg : BitVec 88,
    exec (.sckRisingEdge b) s = .next { s with mlc := { s.mlc with bitCount := s.mlc.bitCount + 1, inReg := reg } } ∧
    (s.mlc.bitCount < 88 → reg.getLsbD 0 = b ∧ ∀ j : Nat, j < 87 → reg.getLsbD (j + 1) = s.mlc.inReg.getLsbD j)) ∧
  (∀ s : State, s.pins.csLow = true → s.mlc.frameOpen = true →
    exec .sckFallingEdge s = .next { s with mlc := { s.mlc with outReg := s.mlc.outReg <<< 1 } }) ∧
  (∀ s : State, s.pins.csLow = false →
    s.miso = .highImpedance ∧ exec .sckFallingEdge s = .next s ∧ ∀ b, exec (.sckRisingEdge b) s = .next s) ∧
  (∀ s : State, s.pins.csLow = true → s.mlc.frameOpen = false → ∀ b, exec (.sckRisingEdge b) s = .next s)

/-- The pending reply comes out bit by bit on MISO, byte 0 first and each byte most significant bit first, and 0 after
its 88 bits; the bits taken in are counted (R177, R178). -/
def Obligations.ReplyComesOutOnMiso : Prop :=
  ∀ (s : State) (bits : List Bool), s.linkReady →
    let t := shiftBits bits (beginFrame s)
    t.miso = .driven (s.mlc.reply.word.getMsbD bits.length) ∧ t.mlc.bitCount = bits.length ∧
    t.mlc.reply = s.mlc.reply ∧ t.entries = s.entries ∧ t.esc = s.esc ∧ t.events = s.events ∧ t.timer = s.timer ∧
    t.transit = s.transit

/-- A frame of the wrong length or with a bad CRC is not executed: the pending reply becomes BAD_FRAME with byte 0 as
received, or 0, and zero data, and nothing outside the link's registers changes (R179). A frame that is not being taken ends
without a reply: an ignored one (R192), and, by the model's choice, the rest of one that a power-on reset abandoned (log
24). -/
def Obligations.BadFrameIsNotExecuted : Prop :=
  (∀ (s : State) (bits : List Bool), s.linkReady →
    bits.length ≠ 88 ∨ byteOf (bits.drop 80) ≠ crc8 (bits.take 80) →
    ∃ t, exec (.badFrame bits) s = .next t ∧ sameButLink s t ∧
      t.mlc.reply = ⟨.badFrame, if bits.length < 8 then 0 else byteOf (bits.take 8), 0⟩) ∧
  (∀ (s : State) (bits : List Bool), s.pins.csLow = true → s.mlc.frameOpen = true → s.mlc.frameGood = false →
    exec (.badFrame bits) s = .next { s with
      pins := { s.pins with csLow := false }
      mlc := { s.mlc with frameOpen := false, reply := ⟨.badFrame, s.mlc.receivedCode, 0⟩ } }) ∧
  (∀ (s : State) (bits : List Bool), s.pins.csLow = true → s.mlc.frameOpen = false →
    exec (.badFrame bits) s = .next { s with pins := { s.pins with csLow := false } })

/-- A frame of a link row sent bit by bit, FRAME_START and two SCK edges for each of its 88 bits, and then its row, does
what the row does when it carries the frame whole, and ends at the same state: the model's choice of log 8 changes
nothing. -/
def Obligations.LinkFrameBitByBit : Prop :=
  ∀ (s : State) (i : Instr) (code sel : Byte) (arg : Bytes8), linkFrame i = some (code, sel, arg) →
    i.wellFormed = true → s.linkReady →
    exec i (shiftBits (bitsOf (frameWord code sel arg)) (beginFrame s)) = exec i s

/-- A command whose device state does not admit it is refused with BAD_STATE before its ranges are looked at, and changes
nothing but the reply (R181, R182); the states that admit each command (R182). An entry index above 63, a group above 1, a
view above 1 and a part above its greatest are refused with BAD_FIELD (R182, R183, R188, R190). -/
def Obligations.RefusalsByStateAndRange : Prop :=
  (∀ (s : State) (i : Instr) (code sel : Byte) (arg : Bytes8), linkFrame i = some (code, sel, arg) →
    i.wellFormed = true → s.linkReady → code ∈ commandCodes → admits code sel s.esc.device = false →
    ∃ t, exec i s = .next t ∧ sameButLink s t ∧ t.mlc.reply = ⟨.badState, code, 0⟩) ∧
  (∀ (code sel : Byte) (d : DeviceState), code ∈ commandCodes → (admits code sel d = false ↔
    (code = 0x03#8 ∧ (sel = 1#8 ∨ sel = 2#8) ∧ d ≠ .configure) ∨
    ((code = 0x13#8 ∨ code = 0x14#8 ∨ code = 0x22#8 ∨ code = 0x23#8) ∧ d = .lockdown) ∨
    ((code = 0x15#8 ∨ code = 0x21#8) ∧ d ≠ .supervise) ∨ (code = 0x20#8 ∧ d ≠ .configure))) ∧
  ∀ (s : State) (sel : Byte) (arg : Bytes8), s.linkReady →
    (∀ i ∈ [Instr.install sel arg, .retire sel arg, .rearm sel arg, .readEntry sel arg, .collectEntry sel arg],
      ∀ code a, linkFrame i = some (code, sel, a) → 63 < sel.toNat → admits code sel s.esc.device = true →
      ∃ t, exec i s = .next t ∧ sameButLink s t ∧ t.mlc.reply = ⟨.badField, code, 0⟩) ∧
    (∀ i ∈ [Instr.releaseGroup sel arg, .forceGroup sel arg, .deviceStatus sel arg],
      ∀ code a, linkFrame i = some (code, sel, a) → 1 < sel.toNat → admits code sel s.esc.device = true →
      ∃ t, exec i s = .next t ∧ sameButLink s t ∧ t.mlc.reply = ⟨.badField, code, 0⟩) ∧
    (3 < sel.toNat →
      ∃ t, exec (.collectedPart sel arg) s = .next t ∧ sameButLink s t ∧ t.mlc.reply = ⟨.badField, 0x32#8, 0⟩) ∧
    (sel.toNat ≤ 63 → 12 < arg.toNat →
      ∃ t, exec (.readEntry sel arg) s = .next t ∧ sameButLink s t ∧ t.mlc.reply = ⟨.badField, 0x16#8, 0⟩)

/-- BAD_COMMAND for every code that is not in the table (R181), NOP (R182) and IDENTIFY (R183). -/
def Obligations.PlainLinkCommands : Prop :=
  ∀ (s : State) (code sel : Byte) (arg : Bytes8), s.linkReady →
    commandCodes = [0x00#8, 0x01#8, 0x02#8, 0x03#8, 0x10#8, 0x11#8, 0x12#8, 0x13#8, 0x14#8, 0x15#8, 0x16#8, 0x20#8, 0x21#8,
      0x22#8, 0x23#8, 0x24#8, 0x30#8, 0x31#8, 0x32#8, 0x3F#8] ∧
    (code ∉ commandCodes →
      exec (.badCommand code sel arg) s = .next ((received code sel arg s).setReply ⟨.badCommand, code, 0⟩)) ∧
    exec (.nop sel arg) s = .next ((received 0x00#8 sel arg s).setReply ⟨.done, 0x00#8, 0⟩) ∧
    exec (.identify sel arg) s =
      .next ((received 0x01#8 sel arg s).setReply ⟨.done, 0x01#8, 0x0008400164084F4B#64⟩) ∧
    sameButLink s (received code sel arg s)

/-- DEVICE_STATUS: the eight data bytes of each view (R183). -/
def Obligations.DeviceStatusViews : Prop :=
  ∀ (s : State) (arg : Bytes8), s.linkReady → s.events.attention.length ≤ 64 →
    (∃ t d, exec (.deviceStatus 0#8 arg) s = .next t ∧ sameButLink s t ∧ t.mlc.reply = ⟨.done, 0x02#8, d⟩ ∧
      dataByte d 0 = (match s.esc.device with | .configure => 0#8 | .supervise => 1#8 | .lockdown => 2#8) ∧
      dataByte d 1 = (match s.esc.reason with | .none => 0#8 | .entry _ => 1#8 | .monitor => 2#8) ∧
      dataByte d 2 = (match s.esc.reason with | .entry k => BitVec.ofNat 8 k.val | .none => 0#8 | .monitor => 0#8) ∧
      dataByte d 3 = (match s.esc.groupA.state with | .clear => 0#8 | .tripped => 1#8 | .latched => 2#8) ∧
      dataByte d 4 = (match s.esc.groupB.state with | .clear => 0#8 | .tripped => 1#8 | .latched => 2#8) ∧
      dataByte d 5 = BitVec.ofNat 8 s.events.attention.length ∧
      dataByte d 6 = (match s.mlc.startCause with | .power => 0#8 | .soft => 1#8) ∧
      dataByte d 7 = (if s.mlc.alertEnable then (if s.events.attention = [] then 1#8 else 3#8) else 0#8)) ∧
    (∃ t d, exec (.deviceStatus 1#8 arg) s = .next t ∧ sameButLink s t ∧ t.mlc.reply = ⟨.done, 0x02#8, d⟩ ∧
      dataByte d 0 = (match s.mlc.armingWindow with
        | .ms100 => 0#8 | .ms200 => 1#8 | .ms500 => 2#8 | .ms1000 => 3#8 | .ms2000 => 4#8 | .ms5000 => 5#8) ∧
      d.extractLsb' 8 32 = s.mlc.poison ∧ dataByte d 5 = (if s.mlc.alertEnable then 1#8 else 0#8) ∧
      dataByte d 6 = 0#8 ∧ dataByte d 7 = 0#8)

/-- SET_DEVICE (R187): in CONFIGURE the arming window and the poison word take the value sent, in every state the alert
enable does, and the reply is DONE; nothing else but the link's registers changes. BAD_FIELD for a value outside the range
or a selector that names no setting, and BAD_STATE for settings 1 and 2 outside CONFIGURE, with the setting kept. That any of
the three rows may carry a selector of no setting is the model's choice (log 9). -/
def Obligations.SetDeviceSettings : Prop :=
  ∀ (s : State) (arg : Bytes8), s.linkReady →
    let refused (sel : Byte) (status : LinkStatus) : Result :=
      .next ((received 0x03#8 sel arg s).setReply ⟨status, 0x03#8, 0⟩)
    let u := received 0x03#8 3#8 arg s
    (s.esc.device = .configure →
      (∀ w : ArmingWindow, arg = (match w with
          | .ms100 => 0#64 | .ms200 => 1#64 | .ms500 => 2#64 | .ms1000 => 3#64 | .ms2000 => 4#64 | .ms5000 => 5#64) →
        let t := received 0x03#8 1#8 arg s
        exec (.setArmingWindow 1#8 arg) s =
          .next { t with mlc := { t.mlc with armingWindow := w, reply := ⟨.done, 0x03#8, 0⟩ } }) ∧
      (5 < arg.toNat → exec (.setArmingWindow 1#8 arg) s = refused 1#8 .badField) ∧
      (arg.toNat ≤ 4294967295 →
        let t := received 0x03#8 2#8 arg s
        exec (.setPoisonWord 2#8 arg) s =
          .next { t with mlc := { t.mlc with poison := arg.setWidth 32, reply := ⟨.done, 0x03#8, 0⟩ } }) ∧
      (4294967295 < arg.toNat → exec (.setPoisonWord 2#8 arg) s = refused 2#8 .badField)) ∧
    (s.esc.device ≠ .configure →
      exec (.setArmingWindow 1#8 arg) s = refused 1#8 .badState ∧
      exec (.setPoisonWord 2#8 arg) s = refused 2#8 .badState) ∧
    (arg = 0 → exec (.setAlertEnable 3#8 arg) s =
      .next { u with mlc := { u.mlc with alertEnable := false, reply := ⟨.done, 0x03#8, 0⟩ } }) ∧
    (arg = 1 → exec (.setAlertEnable 3#8 arg) s =
      .next { u with mlc := { u.mlc with alertEnable := true, reply := ⟨.done, 0x03#8, 0⟩ } }) ∧
    (1 < arg.toNat → exec (.setAlertEnable 3#8 arg) s = refused 3#8 .badField) ∧
    (∀ sel : Byte, sameButLink s (received 0x03#8 sel arg s)) ∧
    (∀ sel : Byte, sel = 0#8 ∨ 3 < sel.toNat →
      ∀ i ∈ [Instr.setArmingWindow sel arg, .setPoisonWord sel arg, .setAlertEnable sel arg],
        exec i s = refused sel .badField)

/-- The draft commands (R184, R185): DRAFT_CLEAR gives the defaults; DRAFT_SET is DONE exactly for an identifier and a
number of the table and then changes that field alone; DRAFT_OMIT makes one of the four limits absent and keeps its bytes.
Every refusal is BAD_FIELD, and nothing but the draft and the link's registers changes. -/
def Obligations.DraftCommands : Prop :=
  ∀ (s : State) (sel : Byte) (arg : Bytes8), s.linkReady →
    (∃ t, exec (.draftClear sel arg) s = .next t ∧ t.mlc.draft = draftDefaults ∧ t.mlc.reply = ⟨.done, 0x10#8, 0⟩ ∧
      sameButLink s { t with mlc := { t.mlc with draft := s.mlc.draft } }) ∧
    (∃ t, exec (.draftSet sel arg) s = .next t ∧
      sameButLink s { t with mlc := { t.mlc with draft := s.mlc.draft } } ∧
      ((∃ lo hi, (sel, lo, hi) ∈ fieldRanges ∧ lo ≤ arg.toNat ∧ arg.toNat ≤ hi) →
        t.mlc.reply = ⟨.done, 0x11#8, 0⟩ ∧ t.mlc.draft.fieldNumber sel = some (true, arg.toNat) ∧
        ∀ f, f ≠ sel → t.mlc.draft.fieldNumber f = s.mlc.draft.fieldNumber f) ∧
      ((¬ ∃ lo hi, (sel, lo, hi) ∈ fieldRanges ∧ lo ≤ arg.toNat ∧ arg.toNat ≤ hi) →
        t.mlc.reply = ⟨.badField, 0x11#8, 0⟩ ∧ t.mlc.draft = s.mlc.draft)) ∧
    (∃ t, exec (.draftOmit sel arg) s = .next t ∧
      sameButLink s { t with mlc := { t.mlc with draft := s.mlc.draft } } ∧
      (sel = 4#8 ∨ sel = 5#8 ∨ sel = 6#8 ∨ sel = 7#8 →
        t.mlc.reply = ⟨.done, 0x12#8, 0⟩ ∧
        t.mlc.draft.fieldNumber sel = (s.mlc.draft.fieldNumber sel).map (fun p => (false, p.2)) ∧
        ∀ f, f ≠ sel → t.mlc.draft.fieldNumber f = s.mlc.draft.fieldNumber f) ∧
      (¬ (sel = 4#8 ∨ sel = 5#8 ∨ sel = 6#8 ∨ sel = 7#8) →
        t.mlc.reply = ⟨.badField, 0x12#8, 0⟩ ∧ t.mlc.draft = s.mlc.draft))

/-- A draft is consistent exactly when R14 says so. For the integer formats its limits and hysteresis lie in the ranges of
R4; for the real formats no limit is a NaN, the hysteresis is finite and not negative, and a REAL64 base is even; the low
limits are not above the high ones, and twice the hysteresis fits the warn band, which an infinite side always allows. A
SEQUENCE or FLAGS draft is always consistent (R3). -/
def Obligations.DraftConsistency : Prop :=
  (∀ d : Definition, d.format = .unsigned ∨ d.format = .signed →
    let inRange : Limit → Prop := fun l => l.present = true →
      if d.format = .unsigned then 0 ≤ l.bytes.toInt ∧ l.bytes.toInt ≤ 4294967295
      else -2147483648 ≤ l.bytes.toInt ∧ l.bytes.toInt ≤ 2147483647
    (d.consistent = true ↔
      inRange d.hardLow ∧ inRange d.hardHigh ∧ inRange d.warnLow ∧ inRange d.warnHigh ∧
      0 ≤ d.hysteresis.toInt ∧ d.hysteresis.toInt ≤ 4294967295 ∧
      (d.hardLow.present = true → d.hardHigh.present = true → d.hardLow.bytes.toInt ≤ d.hardHigh.bytes.toInt) ∧
      (d.warnLow.present = true → d.warnHigh.present = true →
        d.warnLow.bytes.toInt ≤ d.warnHigh.bytes.toInt ∧
        2 * d.hysteresis.toInt ≤ d.warnHigh.bytes.toInt - d.warnLow.bytes.toInt))) ∧
  (∀ d : Definition, d.format = .real32 ∨ d.format = .real64 →
    let isNumber : Limit → Prop := fun l => l.present = true → num64 l.bytes ≠ .nan
    (d.consistent = true ↔
      (d.format = .real64 → d.base.getLsbD 0 = false) ∧
      isNumber d.hardLow ∧ isNumber d.hardHigh ∧ isNumber d.warnLow ∧ isNumber d.warnHigh ∧
      (∃ h : Int, num64 d.hysteresis = .fin h ∧ 0 ≤ h) ∧
      (d.hardLow.present = true → d.hardHigh.present = true →
        (num64 d.hardHigh.bytes).below (num64 d.hardLow.bytes) = false) ∧
      (d.warnLow.present = true → d.warnHigh.present = true →
        (num64 d.warnHigh.bytes).below (num64 d.warnLow.bytes) = false ∧
        ∀ a b h : Int, num64 d.warnLow.bytes = .fin a → num64 d.warnHigh.bytes = .fin b →
          num64 d.hysteresis = .fin h → 2 * h ≤ b - a))) ∧
  ∀ d : Definition, d.format = .sequence ∨ d.format = .flags → d.consistent = true

/-- INSTALL of a valid index where the device state admits it: the checks in the order of R13 and the effect of R16. -/
def Obligations.InstallEffects : Prop :=
  ∀ (s : State) (k : Index) (sel : Byte) (arg : Bytes8), s.linkReady → sel.toNat = k.val →
    s.esc.device ≠ .lockdown →
    let t := received 0x13#8 sel arg s
    let d := s.mlc.draft
    let overlaps := ∃ j a, (s.entry j).covers a = true ∧ (a = d.base ∨ d.format = .real64 ∧ a = d.base + 1)
    ((s.entry k).state ≠ .empty → exec (.install sel arg) s = .next (t.setReply ⟨.badState, 0x13#8, 0⟩)) ∧
    ((s.entry k).state = .empty → d.consistent = false →
      exec (.install sel arg) s = .next (t.setReply ⟨.badField, 0x13#8, 0⟩)) ∧
    ((s.entry k).state = .empty → d.consistent = true → overlaps →
      exec (.install sel arg) s = .next (t.setReply ⟨.overlap, 0x13#8, 0⟩)) ∧
    ((s.entry k).state = .empty → d.consistent = true → ¬ overlaps →
      (s.esc.device = .configure → exec (.install sel arg) s = .next
        { t.setReply ⟨.done, 0x13#8, 0⟩ with
          entries := s.entries.set k ⟨d, .defined, .closed, 0, 0, none, none, .inside, false⟩ }) ∧
      (s.esc.device = .supervise → exec (.install sel arg) s = .next
        { t.setReply ⟨.done, 0x13#8, 0⟩ with
          entries := s.entries.set k ⟨d, .armed, .closed, 0, 0, none, none, .inside, false⟩
          timer := { s.timer with windows := s.timer.windows.set k (armingWindowFor d s.mlc.armingWindow) } }))

/-- RETIRE of a valid index where the device state admits it (R21): EMPTY is BAD_STATE, FAILED is FAIL_PRESENT, and
otherwise the entry, its window and its latches are cleared and it leaves the Attention List. -/
def Obligations.RetireEffects : Prop :=
  ∀ (s : State) (k : Index) (sel : Byte) (arg : Bytes8), s.linkReady → sel.toNat = k.val →
    s.esc.device ≠ .lockdown →
    let t := received 0x14#8 sel arg s
    ((s.entry k).state = .empty → exec (.retire sel arg) s = .next (t.setReply ⟨.badState, 0x14#8, 0⟩)) ∧
    ((s.entry k).state = .failed → exec (.retire sel arg) s = .next (t.setReply ⟨.failPresent, 0x14#8, 0⟩)) ∧
    ((s.entry k).state ≠ .empty → (s.entry k).state ≠ .failed →
      exec (.retire sel arg) s = .next
        { t.setReply ⟨.done, 0x14#8, 0⟩ with
          entries := s.entries.set k ⟨draftDefaults, .empty, .closed, 0, 0, none, none, .inside, false⟩
          timer := { s.timer with windows := s.timer.windows.set k ⟨.stopped, 0⟩ }
          events := ⟨s.events.latches.set k ⟨0, none, 0, 0⟩, s.events.attention.filter (· != k)⟩ })

/-- REARM of a valid index in SUPERVISE (R19, R159): EMPTY is BAD_STATE; otherwise the entry is ARMED with its running
state cleared and its arming window started, and a FAILED entry leaves the failed members of its groups. An entry in
DEFINED, which SUPERVISE never holds, is refused by the model with BAD_STATE (log 20). -/
def Obligations.RearmEffects : Prop :=
  ∀ (s : State) (k : Index) (sel : Byte) (arg : Bytes8), s.linkReady → sel.toNat = k.val →
    s.esc.device = .supervise →
    let t := received 0x15#8 sel arg s
    let e := s.entry k
    let without (g : Group) : Group :=
      ⟨if g.state = .tripped ∧ ∀ j : Index, j ≠ k → g.failed[j] = false then .latched else g.state, g.failed.set k false⟩
    (e.state = .empty ∨ e.state = .defined →
      exec (.rearm sel arg) s = .next (t.setReply ⟨.badState, 0x15#8, 0⟩)) ∧
    (e.state ≠ .empty → e.state ≠ .defined →
      exec (.rearm sel arg) s = .next
        { t.setReply ⟨.done, 0x15#8, 0⟩ with
          entries := s.entries.set k ⟨e.defn, .armed, .closed, 0, 0, none, none, .inside, false⟩
          timer := { s.timer with windows := s.timer.windows.set k (armingWindowFor e.defn s.mlc.armingWindow) }
          esc := if e.state = .failed then
              { s.esc with
                groupA := if e.defn.reaction.inGroupA then without s.esc.groupA else s.esc.groupA
                groupB := if e.defn.reaction.inGroupB then without s.esc.groupB else s.esc.groupB }
            else s.esc })

/-- START in CONFIGURE (R17, R149) and STOP in SUPERVISE (R18, R150): what becomes of each entry and window, with the
groups, the latches and the Attention List kept. -/
def Obligations.StartAndStopEffects : Prop :=
  ∀ (s : State) (sel : Byte) (arg : Bytes8), s.linkReady →
    let keeps (t : State) : Prop :=
      t.pins = s.pins ∧ t.transit = s.transit ∧ t.msi = s.msi ∧ t.timer.divider = s.timer.divider ∧
      t.events = s.events ∧ t.esc.reason = s.esc.reason ∧ t.esc.groupA = s.esc.groupA ∧
      t.esc.groupB = s.esc.groupB ∧ t.mlc.draft = s.mlc.draft ∧ t.mlc.buffer = s.mlc.buffer ∧
      t.mlc.armingWindow = s.mlc.armingWindow ∧ t.mlc.poison = s.mlc.poison ∧
      t.mlc.alertEnable = s.mlc.alertEnable ∧ t.mlc.startCause = s.mlc.startCause ∧ t.pending = s.pending
    (s.esc.device = .configure → ∃ t, exec (.start sel arg) s = .next t ∧ keeps t ∧ t.esc.device = .supervise ∧
      t.mlc.reply = ⟨.done, 0x20#8, 0⟩ ∧
      ∀ k, if (s.entry k).state = .defined then
          t.entry k = ⟨(s.entry k).defn, .armed, .closed, 0, 0, none, none, .inside, false⟩ ∧
          t.window k = armingWindowFor (s.entry k).defn s.mlc.armingWindow
        else t.entry k = s.entry k ∧ t.window k = s.window k) ∧
    (s.esc.device = .supervise → (∃ k, (s.entry k).state = .failed) →
      ∃ t, exec (.stop sel arg) s = .next t ∧ sameButLink s t ∧ t.mlc.reply = ⟨.failPresent, 0x21#8, 0⟩) ∧
    (s.esc.device = .supervise → (∀ k, (s.entry k).state ≠ .failed) →
      ∃ t, exec (.stop sel arg) s = .next t ∧ keeps t ∧ t.esc.device = .configure ∧
      t.mlc.reply = ⟨.done, 0x21#8, 0⟩ ∧
      ∀ k, if (s.entry k).state = .armed ∨ (s.entry k).state = .live ∨ (s.entry k).state = .stale then
          t.entry k = { s.entry k with
            state := .defined, faultCounter := 0, dwellCounter := 0, lastGood := none, pendingHalf := none } ∧
          t.window k = ⟨.stopped, 0⟩
        else t.entry k = s.entry k ∧ t.window k = s.window k)

/-- READ_ENTRY: the bytes of every part (R188), with the codes of R184 and R189, for an entry whose fields lie in their
ranges. -/
def Obligations.ReadEntryParts : Prop :=
  ∀ (s : State) (k : Index) (sel : Byte) (part : Nat), s.linkReady → sel.toNat = k.val → part ≤ 12 →
    RangeLaw s → CounterLaw s → WarnLaw s → WindowLaw s →
    let e := s.entry k
    let d := e.defn
    ∃ t b, exec (.readEntry sel (BitVec.ofNat 64 part)) s = .next t ∧ sameButLink s t ∧
      t.mlc.reply = ⟨.done, 0x16#8, b⟩ ∧
      (part = 0 → b.extractLsb' 0 32 = d.base.setWidth 32 ∧ dataByte b 4 = (match d.format with
          | .unsigned => 0#8 | .signed => 1#8 | .real32 => 2#8 | .real64 => 3#8 | .sequence => 4#8 | .flags => 5#8) ∧
        dataByte b 5 = d.writers.setWidth 8 ∧ dataByte b 6 = BitVec.ofNat 8 d.threshold ∧
        dataByte b 7 = (match d.reaction with
          | .note => 0#8 | .groupA => 1#8 | .groupB => 2#8 | .groupAB => 3#8 | .lockdown => 4#8)) ∧
      (part = 1 →
        dataByte b 0 = (match d.period with
          | .none => 0#8 | .ms1 => 1#8 | .ms2 => 2#8 | .ms5 => 3#8 | .ms10 => 4#8 | .ms20 => 5#8 | .ms50 => 6#8
          | .ms100 => 7#8 | .ms200 => 8#8 | .ms500 => 9#8 | .ms1000 => 10#8) ∧
        dataByte b 1 = (match d.closedFraction with | .pct0 => 0#8 | .pct25 => 1#8 | .pct50 => 2#8 | .pct75 => 3#8) ∧
        dataByte b 2 = (match d.arming with | .timed => 0#8 | .untimed => 1#8) ∧
        dataByte b 3 = (match d.violation with | .pass => 0#8 | .hold => 1#8 | .drop => 2#8) ∧
        dataByte b 4 = (match d.dropAnswer with | .okay => 0#8 | .error => 1#8) ∧
        dataByte b 5 = (match d.readPolicy with | .pass => 0#8 | .poison => 1#8 | .poisonError => 2#8) ∧
        dataByte b 6 = (match d.alarmMode with | .level => 0#8 | .edge => 1#8 | .single => 2#8) ∧
        dataByte b 7 = BitVec.ofNat 8 d.dwell) ∧
      (part = 2 → b.extractLsb' 0 16 = BitVec.ofNat 16 d.maxStep ∧ dataByte b 2 = d.classes.setWidth 8 ∧
        b.extractLsb' 24 16 = d.alertKinds ∧ b.getLsbD 40 = d.hardLow.present ∧ b.getLsbD 41 = d.hardHigh.present ∧
        b.getLsbD 42 = d.warnLow.present ∧ b.getLsbD 43 = d.warnHigh.present ∧ b.extractLsb' 44 20 = 0) ∧
      (part = 3 → b = if d.hardLow.present then d.hardLow.bytes else 0) ∧
      (part = 4 → b = if d.hardHigh.present then d.hardHigh.bytes else 0) ∧
      (part = 5 → b = if d.warnLow.present then d.warnLow.bytes else 0) ∧
      (part = 6 → b = if d.warnHigh.present then d.warnHigh.bytes else 0) ∧
      (part = 7 → b = d.hysteresis) ∧
      (part = 8 → b.extractLsb' 0 32 = d.stickyMask ∧ b.extractLsb' 32 32 = d.riseMask) ∧
      (part = 9 → b.extractLsb' 0 32 = d.fallMask ∧ b.extractLsb' 32 32 = 0) ∧
      (part = 10 →
        dataByte b 0 = (match e.state with
          | .empty => 0#8 | .defined => 1#8 | .armed => 2#8 | .live => 3#8 | .stale => 4#8 | .failed => 5#8) ∧
        dataByte b 1 = (match e.phase with | .closed => 0#8 | .opened => 1#8) ∧
        dataByte b 2 = BitVec.ofNat 8 e.faultCounter ∧ dataByte b 3 = BitVec.ofNat 8 e.dwellCounter ∧
        dataByte b 4 = (match e.warn with | .inside => 0#8 | .outside => 1#8) ∧
        dataByte b 5 = (if e.singleFired then 1#8 else 0#8) ∧
        dataByte b 6 = (match (s.window k).kind with
          | .stopped => 0#8 | .arming => 1#8 | .cycle => 2#8 | .stalePeriod => 3#8) ∧
        b.getLsbD 56 = e.lastGood.isSome ∧
        b.getLsbD 57 = e.pendingHalf.isSome ∧
        (∀ p, e.pendingHalf = some p → b.getLsbD 58 = (p.half == .high) ∧
          b.extractLsb' 60 2 = BitVec.ofNat 2 p.initiator.val) ∧
        (e.pendingHalf = none → b.extractLsb' 57 7 = 0)) ∧
      (part = 11 → b = match e.lastGood with
        | none => 0
        | some (.word w) => w.setWidth 64
        | some (.pair lo hi) => hi ++ lo) ∧
      (part = 12 → b.extractLsb' 0 32 = (match e.pendingHalf with | none => 0 | some p => p.word) ∧
        b.extractLsb' 32 16 = BitVec.ofNat 16 (s.window k).count ∧ b.extractLsb' 48 16 = 0)

/-! ### Groups, LOCKDOWN, collection -/

/-- The LOCKDOWN command in CONFIGURE and SUPERVISE (R151, R153): both groups trip, every pending half is discarded, the
windows and the latches stay, and the DECIDED slots are converted. -/
def Obligations.LockdownCommandEffects : Prop :=
  ∀ (s : State) (sel : Byte) (arg : Bytes8), s.linkReady → s.esc.device ≠ .lockdown →
    ∃ t, exec (.lockdown sel arg) s = .next t ∧
      t.esc = ⟨.lockdown, .monitor, ⟨.tripped, s.esc.groupA.failed⟩, ⟨.tripped, s.esc.groupB.failed⟩⟩ ∧
      (∀ k, t.entry k = { s.entry k with pendingHalf := none }) ∧
      t.transit.slots = s.transit.slots.map (convertForLockdown s) ∧ t.transit.draining = s.transit.draining ∧
      t.mlc.reply = ⟨.done, 0x22#8, 0⟩ ∧ t.pins = s.pins ∧ t.msi = s.msi ∧ t.timer = s.timer ∧ t.events = s.events ∧
      t.mlc.draft = s.mlc.draft ∧ t.mlc.buffer = s.mlc.buffer ∧ t.mlc.armingWindow = s.mlc.armingWindow ∧
      t.mlc.poison = s.mlc.poison ∧ t.mlc.alertEnable = s.mlc.alertEnable ∧ t.mlc.startCause = s.mlc.startCause ∧
      t.pending = s.pending

/-- Once in LOCKDOWN the device stays there, with its reason, its entries, its window records, its groups TRIPPED and
no event latched by anything but a collection, until a power-on or soft reset (R135, R154): for every command, and for every
step, also one with no command waiting, which may accept a request held offered (log 3). -/
def Obligations.LockdownStays : Prop :=
  let locked (s : State) : Prop := s.esc.device = .lockdown ∧ s.esc.groupA.state = .tripped ∧ s.esc.groupB.state = .tripped
  let stays (s t : State) : Prop := t.esc = s.esc ∧ t.entries = s.entries ∧ t.timer.windows = s.timer.windows
  (∀ (s t : State) (i : Instr), locked s → (∀ sel arg, i ≠ .softReset sel arg) → i ≠ .powerOnReset →
    exec i s = .next t →
    stays s t ∧ ((∀ sel arg, i ≠ .collect sel arg ∧ i ≠ .collectEntry sel arg) → t.events = s.events)) ∧
  (∀ s t : State, locked s → s.pending = [] → step s = .next t → stays s t ∧ t.events = s.events) ∧
  ∀ (s t : State) (i : Instr) (rest : List Instr), locked s → s.pending = i :: rest →
    (∀ sel arg, i ≠ .softReset sel arg) → i ≠ .powerOnReset → step s = .next t →
    stays s t ∧ ((∀ sel arg, i ≠ .collect sel arg ∧ i ≠ .collectEntry sel arg) → t.events = s.events)

/-- RELEASE_GROUP in CONFIGURE and SUPERVISE acts on the named group by its state, and on nothing else (R160). FORCE_GROUP
moves a CLEAR group to LATCHED in every device state and changes nothing else, and a failure of a member then gives what it
would have given (R161). A fail line is deasserted exactly while its group is CLEAR. -/
def Obligations.GroupCommandTables : Prop :=
  (∀ (s : State) (arg : Bytes8), s.linkReady →
      (s.esc.device = .lockdown → ∀ sel : Byte,
        exec (.releaseGroup sel arg) s = .next ((received 0x23#8 sel arg s).setReply ⟨.badState, 0x23#8, 0⟩)) ∧
      (s.esc.device ≠ .lockdown → ∀ sel : Byte, 1 < sel.toNat →
        exec (.releaseGroup sel arg) s = .next ((received 0x23#8 sel arg s).setReply ⟨.badField, 0x23#8, 0⟩)) ∧
      (s.esc.device ≠ .lockdown →
        let a := received 0x23#8 0#8 arg s
        let b := received 0x23#8 1#8 arg s
        (s.esc.groupA.state = .latched → exec (.releaseGroup 0#8 arg) s = .next
          { a.setReply ⟨.done, 0x23#8, 0⟩ with esc := { s.esc with groupA := ⟨.clear, s.esc.groupA.failed⟩ } }) ∧
        (s.esc.groupA.state = .tripped →
          exec (.releaseGroup 0#8 arg) s = .next (a.setReply ⟨.failPresent, 0x23#8, 0⟩)) ∧
        (s.esc.groupA.state = .clear → exec (.releaseGroup 0#8 arg) s = .next (a.setReply ⟨.done, 0x23#8, 0⟩)) ∧
        (s.esc.groupB.state = .latched → exec (.releaseGroup 1#8 arg) s = .next
          { b.setReply ⟨.done, 0x23#8, 0⟩ with esc := { s.esc with groupB := ⟨.clear, s.esc.groupB.failed⟩ } }) ∧
        (s.esc.groupB.state = .tripped →
          exec (.releaseGroup 1#8 arg) s = .next (b.setReply ⟨.failPresent, 0x23#8, 0⟩)) ∧
        (s.esc.groupB.state = .clear → exec (.releaseGroup 1#8 arg) s = .next (b.setReply ⟨.done, 0x23#8, 0⟩))) ∧
      (s.esc.device = .configure → DeviceLaw s → GroupLaw s → ∀ sel : Byte, sel.toNat ≤ 1 →
        ∃ t, exec (.releaseGroup sel arg) s = .next t ∧ t.mlc.reply = ⟨.done, 0x23#8, 0⟩)) ∧
  (∀ (s : State) (arg : Bytes8), s.linkReady →
    let a := received 0x24#8 0#8 arg s
    let b := received 0x24#8 1#8 arg s
    (s.esc.groupA.state = .clear → exec (.forceGroup 0#8 arg) s = .next
      { a.setReply ⟨.done, 0x24#8, 0⟩ with esc := { s.esc with groupA := ⟨.latched, s.esc.groupA.failed⟩ } }) ∧
    (s.esc.groupA.state ≠ .clear → exec (.forceGroup 0#8 arg) s = .next (a.setReply ⟨.done, 0x24#8, 0⟩)) ∧
    (s.esc.groupB.state = .clear → exec (.forceGroup 1#8 arg) s = .next
      { b.setReply ⟨.done, 0x24#8, 0⟩ with esc := { s.esc with groupB := ⟨.latched, s.esc.groupB.failed⟩ } }) ∧
    (s.esc.groupB.state ≠ .clear → exec (.forceGroup 1#8 arg) s = .next (b.setReply ⟨.done, 0x24#8, 0⟩))) ∧
  (∀ (g : Group) (k : Index), (⟨.latched, g.failed⟩ : Group).memberFailed k = g.memberFailed k ∧
    (g.memberFailed k).state = .tripped) ∧
  (∀ s : State, (s.failAAsserted = false ↔ s.esc.groupA.state = .clear) ∧
    (s.failBAsserted = false ↔ s.esc.groupB.state = .clear))

/-- ALERT_N and the fail lines (R162, R171), and the members of the two groups (R157). -/
def Obligations.OutputLines : Prop :=
  (∀ r : Reaction, (r.inGroupA = true ↔ r = .groupA ∨ r = .groupAB ∨ r = .lockdown) ∧
    (r.inGroupB = true ↔ r = .groupB ∨ r = .groupAB ∨ r = .lockdown)) ∧
  ∀ s : State,
    (s.alertAsserted = true ↔ s.events.attention ≠ [] ∧ s.mlc.alertEnable = true) ∧
    (s.failAAsserted = true ↔ s.esc.groupA.state = .tripped ∨ s.esc.groupA.state = .latched) ∧
    (s.failBAsserted = true ↔ s.esc.groupB.state = .tripped ∨ s.esc.groupB.state = .latched) ∧
    (GroupLaw s → s.esc.device = .lockdown ∨
        (∃ k, (s.entry k).state = .failed ∧ (s.entry k).defn.reaction.inGroupA = true) → s.failAAsserted = true) ∧
    (GroupLaw s → s.esc.device = .lockdown ∨
        (∃ k, (s.entry k).state = .failed ∧ (s.entry k).defn.reaction.inGroupB = true) → s.failBAsserted = true)

/-- COLLECT takes the head of the Attention List and COLLECT_ENTRY a named entry with something latched: the buffer is
overwritten, the latch record cleared, the entry leaves the list with the others in their order, and no entry record,
window or group changes (R172, R173, R174, R190). -/
def Obligations.CollectionEffects : Prop :=
  ∀ (s : State) (sel : Byte) (arg : Bytes8), s.linkReady →
    let collected (code : Byte) (k : Index) (t : State) : Prop :=
      t.mlc.buffer = some ⟨k, (s.latch k).latched, (s.latch k).capture, (s.latch k).rise, (s.latch k).fall,
        (s.entry k).state, (s.entry k).faultCounter⟩ ∧
      t.latch k = clearedLatch ∧ (∀ j, j ≠ k → t.latch j = s.latch j) ∧
      t.events.attention = s.events.attention.filter (· != k) ∧ t.mlc.reply.status = .done ∧ t.mlc.reply.echo = code ∧
      (CounterLaw s → RangeLaw s →
        dataByte t.mlc.reply.data 0 = BitVec.ofNat 8 k.val ∧
        t.mlc.reply.data.extractLsb' 8 16 = (s.latch k).latched ∧
        dataByte t.mlc.reply.data 3 = (if (s.latch k).capture.isSome then 1#8 else 0#8) ∧
        dataByte t.mlc.reply.data 4 = (match (s.entry k).state with
          | .empty => 0#8 | .defined => 1#8 | .armed => 2#8 | .live => 3#8 | .stale => 4#8 | .failed => 5#8) ∧
        dataByte t.mlc.reply.data 5 = BitVec.ofNat 8 (s.entry k).faultCounter ∧
        t.mlc.reply.data.extractLsb' 48 16 = 0) ∧
      sameButLink s { t with events := s.events, mlc := { t.mlc with buffer := s.mlc.buffer } }
    (s.events.attention = [] → exec (.collect sel arg) s =
      .next ((received 0x30#8 sel arg s).setReply ⟨.emptyList, 0x30#8, 0⟩)) ∧
    (∀ k rest, s.events.attention = k :: rest → ∃ t, exec (.collect sel arg) s = .next t ∧ collected 0x30#8 k t) ∧
    (∀ k : Index, sel.toNat = k.val →
      ((s.latch k).latched = 0 → exec (.collectEntry sel arg) s =
        .next ((received 0x31#8 sel arg s).setReply ⟨.emptyList, 0x31#8, 0⟩)) ∧
      ((s.latch k).latched ≠ 0 → ∃ t, exec (.collectEntry sel arg) s = .next t ∧ collected 0x31#8 k t))

/-- COLLECTED_PART reads the Collection Buffer and changes nothing (R190). -/
def Obligations.CollectedPartData : Prop :=
  ∀ (s : State) (sel : Byte) (arg : Bytes8), s.linkReady → sel.toNat ≤ 3 →
    ∃ t b, exec (.collectedPart sel arg) s = .next t ∧ sameButLink s t ∧ t.mlc.reply = ⟨.done, 0x32#8, b⟩ ∧
      (s.mlc.buffer = none → b = 0) ∧
      ∀ r, s.mlc.buffer = some r → r.faultCounter ≤ 7 →
        (sel = 0#8 → dataByte b 0 = 1#8 ∧ dataByte b 1 = BitVec.ofNat 8 r.index.val ∧
          b.extractLsb' 16 16 = r.latched ∧
          dataByte b 4 = (match r.state with
            | .empty => 0#8 | .defined => 1#8 | .armed => 2#8 | .live => 3#8 | .stale => 4#8 | .failed => 5#8) ∧
          dataByte b 5 = BitVec.ofNat 8 r.faultCounter ∧
          dataByte b 6 = (if r.capture.isSome then 1#8 else 0#8) ∧ dataByte b 7 = 0#8) ∧
        (sel = 3#8 → b.extractLsb' 0 32 = r.rise ∧ b.extractLsb' 32 32 = r.fall) ∧
        (sel = 1#8 ∨ sel = 2#8 → r.capture = none → b = 0) ∧
        ∀ c, r.capture = some c →
          (sel = 1#8 → b = match c.words with
            | .word w => w.setWidth 64
            | .pair lo hi => hi ++ lo) ∧
          (sel = 2#8 → dataByte b 0 = (match c.words with | .word _ => 1#8 | .pair _ _ => 2#8) ∧
            dataByte b 1 = (match c.half with | none => 0#8 | some .low => 1#8 | some .high => 2#8) ∧
            dataByte b 2 = BitVec.ofNat 8 c.initiator.val ∧ b.extractLsb' 24 16 = c.kinds ∧
            dataByte b 5 = (match c.cls with
              | none => 0xFF#8 | some .zero => 0#8 | some .subnormal => 1#8 | some .normal => 2#8
              | some .infinite => 3#8 | some .nan => 4#8) ∧ b.extractLsb' 48 16 = 0)

/-! ### What every step keeps -/

/-- The state after reset meets every law. -/
def Obligations.ResetMeetsTheLaws : Prop :=
  RangeLaw State.reset ∧ CounterLaw State.reset ∧ WarnLaw State.reset ∧ TableLaw State.reset ∧
  IssueLaw State.reset ∧ PendingLaw State.reset ∧ LastGoodLaw State.reset ∧ WindowLaw State.reset ∧
  DeviceLaw State.reset ∧ GroupLaw State.reset ∧ AttentionLaw State.reset ∧ QueueLaw State.reset ∧
  PorstLaw State.reset

/-- Every field stays in its range, no fault counter passes its fail threshold or reaches it without the entry being FAILED
(R2, R9), the dwell counter stays within the dwell, and the warn condition and the single-fired flag go together as the
alarm mode says (R72, R84, R98, R99, R100). -/
def Obligations.StepKeepsCountersAndWarnState : Prop :=
  ∀ s t : State, step s = .next t →
    (RangeLaw s → CounterLaw s → RangeLaw t ∧ CounterLaw t) ∧ (WarnLaw s → WarnLaw t)

/-- No two entries that are not EMPTY come to cover a common word (R15), each was consistent when installed (R14), and an
EMPTY entry holds the draft defaults (R1). No access that a waiting slot would make writes a covered word of a FAILED entry,
and in LOCKDOWN none reaches a supervised word (R42). -/
def Obligations.StepKeepsTableAndQueuedWrites : Prop :=
  ∀ s t : State, TableLaw s → IssueLaw s → step s = .next t → TableLaw t ∧ IssueLaw t

/-- A pending half is held only as R106 allows. -/
def Obligations.StepKeepsPendingHalves : Prop :=
  ∀ s t : State, PendingLaw s → step s = .next t → PendingLaw t

/-- The last good value of an entry lies within its hard band and in an allowed class (R65). -/
def Obligations.StepKeepsLastGoodInBand : Prop :=
  ∀ s t : State, LastGoodLaw s → step s = .next t → LastGoodLaw t

/-- Every window record goes with the state and the phase of its entry (R121, R125, R126). -/
def Obligations.StepKeepsWindowKinds : Prop :=
  ∀ s t : State, WindowLaw s → step s = .next t → WindowLaw t

/-- The device state bounds the entry states, and the lockdown reason goes with it (chapter 1, 1.4; R148, R152); a group is
TRIPPED exactly while a member is FAILED or the device is in LOCKDOWN, and its failed-member set is the set of its FAILED
members (R157, R158, R159). -/
def Obligations.StepKeepsEscalation : Prop :=
  ∀ s t : State, step s = .next t → (DeviceLaw s → DeviceLaw t) ∧ (GroupLaw s → GroupLaw t)

/-- An entry is in the Attention List exactly while its latched set holds an alert kind, and at most once (R168). -/
def Obligations.StepKeepsTheAttentionList : Prop :=
  ∀ s t : State, AttentionLaw s → step s = .next t → AttentionLaw t

/-- The queue holds at most 8 slots with different numbers, and each awaits as many answers as it has accesses in flight
(R27, R31 to R36, R43, R44). -/
def Obligations.StepKeepsTheQueue : Prop :=
  ∀ s t : State, QueueLaw s → step s = .next t → QueueLaw t

/-- While PORST_N is asserted every block holds its power-on values whatever comes (R193). The law holds the two shift
registers and the bit count of the link at 0 as well, which is the model's choice (log 2). -/
def Obligations.StepKeepsPowerOnValues : Prop :=
  ∀ s t : State, PorstLaw s → step s = .next t → PorstLaw t
end

