-- ==== Sys2Proof/Laws/State.lean ====
section
/-! SUPPORT. What each update of the state does to each field: `f_u` says that update `u` leaves field `f` as it was, and
the lemmas after them read back what an update wrote. -/
namespace Sys2Proof.Machine

variable (s : State)

/-! `rfl` would unfold the 64 records of `mapEntries` and `mapWindows` when it compares whole states, so the lemmas about
these two rewrite the definition first. -/

section setEntry
variable (k : Index) (e : Entry)
@[simp] theorem pins_setEntry : (s.setEntry k e).pins = s.pins := rfl
@[simp] theorem transit_setEntry : (s.setEntry k e).transit = s.transit := rfl
@[simp] theorem msi_setEntry : (s.setEntry k e).msi = s.msi := rfl
@[simp] theorem timer_setEntry : (s.setEntry k e).timer = s.timer := rfl
@[simp] theorem esc_setEntry : (s.setEntry k e).esc = s.esc := rfl
@[simp] theorem events_setEntry : (s.setEntry k e).events = s.events := rfl
@[simp] theorem mlc_setEntry : (s.setEntry k e).mlc = s.mlc := rfl
@[simp] theorem freeCount_setEntry : (s.setEntry k e).freeCount = s.freeCount := rfl
@[simp] theorem pending_setEntry : (s.setEntry k e).pending = s.pending := rfl
end setEntry

section mapEntries
variable (f : Index → Entry → Entry)
@[simp] theorem pins_mapEntries : (s.mapEntries f).pins = s.pins := by rw [State.mapEntries]
@[simp] theorem transit_mapEntries : (s.mapEntries f).transit = s.transit := by rw [State.mapEntries]
@[simp] theorem msi_mapEntries : (s.mapEntries f).msi = s.msi := by rw [State.mapEntries]
@[simp] theorem timer_mapEntries : (s.mapEntries f).timer = s.timer := by rw [State.mapEntries]
@[simp] theorem esc_mapEntries : (s.mapEntries f).esc = s.esc := by rw [State.mapEntries]
@[simp] theorem events_mapEntries : (s.mapEntries f).events = s.events := by rw [State.mapEntries]
@[simp] theorem mlc_mapEntries : (s.mapEntries f).mlc = s.mlc := by rw [State.mapEntries]
@[simp] theorem freeCount_mapEntries : (s.mapEntries f).freeCount = s.freeCount := by rw [State.mapEntries]
@[simp] theorem pending_mapEntries : (s.mapEntries f).pending = s.pending := by rw [State.mapEntries]
end mapEntries

section setWindow
variable (k : Index) (w : Window)
@[simp] theorem pins_setWindow : (s.setWindow k w).pins = s.pins := rfl
@[simp] theorem transit_setWindow : (s.setWindow k w).transit = s.transit := rfl
@[simp] theorem msi_setWindow : (s.setWindow k w).msi = s.msi := rfl
@[simp] theorem entries_setWindow : (s.setWindow k w).entries = s.entries := rfl
@[simp] theorem esc_setWindow : (s.setWindow k w).esc = s.esc := rfl
@[simp] theorem events_setWindow : (s.setWindow k w).events = s.events := rfl
@[simp] theorem mlc_setWindow : (s.setWindow k w).mlc = s.mlc := rfl
@[simp] theorem freeCount_setWindow : (s.setWindow k w).freeCount = s.freeCount := rfl
@[simp] theorem pending_setWindow : (s.setWindow k w).pending = s.pending := rfl
end setWindow

section mapWindows
variable (f : Index → Window → Window)
@[simp] theorem pins_mapWindows : (s.mapWindows f).pins = s.pins := by rw [State.mapWindows]
@[simp] theorem transit_mapWindows : (s.mapWindows f).transit = s.transit := by rw [State.mapWindows]
@[simp] theorem msi_mapWindows : (s.mapWindows f).msi = s.msi := by rw [State.mapWindows]
@[simp] theorem entries_mapWindows : (s.mapWindows f).entries = s.entries := by rw [State.mapWindows]
@[simp] theorem esc_mapWindows : (s.mapWindows f).esc = s.esc := by rw [State.mapWindows]
@[simp] theorem events_mapWindows : (s.mapWindows f).events = s.events := by rw [State.mapWindows]
@[simp] theorem mlc_mapWindows : (s.mapWindows f).mlc = s.mlc := by rw [State.mapWindows]
@[simp] theorem freeCount_mapWindows : (s.mapWindows f).freeCount = s.freeCount := by rw [State.mapWindows]
@[simp] theorem pending_mapWindows : (s.mapWindows f).pending = s.pending := by rw [State.mapWindows]
end mapWindows

section setLatch
variable (k : Index) (l : Latch)
@[simp] theorem pins_setLatch : (s.setLatch k l).pins = s.pins := rfl
@[simp] theorem transit_setLatch : (s.setLatch k l).transit = s.transit := rfl
@[simp] theorem msi_setLatch : (s.setLatch k l).msi = s.msi := rfl
@[simp] theorem entries_setLatch : (s.setLatch k l).entries = s.entries := rfl
@[simp] theorem timer_setLatch : (s.setLatch k l).timer = s.timer := rfl
@[simp] theorem esc_setLatch : (s.setLatch k l).esc = s.esc := rfl
@[simp] theorem mlc_setLatch : (s.setLatch k l).mlc = s.mlc := rfl
@[simp] theorem freeCount_setLatch : (s.setLatch k l).freeCount = s.freeCount := rfl
@[simp] theorem pending_setLatch : (s.setLatch k l).pending = s.pending := rfl
end setLatch

section setAttention
variable (l : List Index)
@[simp] theorem pins_setAttention : (s.setAttention l).pins = s.pins := rfl
@[simp] theorem transit_setAttention : (s.setAttention l).transit = s.transit := rfl
@[simp] theorem msi_setAttention : (s.setAttention l).msi = s.msi := rfl
@[simp] theorem entries_setAttention : (s.setAttention l).entries = s.entries := rfl
@[simp] theorem timer_setAttention : (s.setAttention l).timer = s.timer := rfl
@[simp] theorem esc_setAttention : (s.setAttention l).esc = s.esc := rfl
@[simp] theorem mlc_setAttention : (s.setAttention l).mlc = s.mlc := rfl
@[simp] theorem freeCount_setAttention : (s.setAttention l).freeCount = s.freeCount := rfl
@[simp] theorem pending_setAttention : (s.setAttention l).pending = s.pending := rfl
end setAttention

section setSlots
variable (l : List Slot)
@[simp] theorem pins_setSlots : (s.setSlots l).pins = s.pins := rfl
@[simp] theorem msi_setSlots : (s.setSlots l).msi = s.msi := rfl
@[simp] theorem entries_setSlots : (s.setSlots l).entries = s.entries := rfl
@[simp] theorem timer_setSlots : (s.setSlots l).timer = s.timer := rfl
@[simp] theorem esc_setSlots : (s.setSlots l).esc = s.esc := rfl
@[simp] theorem events_setSlots : (s.setSlots l).events = s.events := rfl
@[simp] theorem mlc_setSlots : (s.setSlots l).mlc = s.mlc := rfl
@[simp] theorem freeCount_setSlots : (s.setSlots l).freeCount = s.freeCount := rfl
@[simp] theorem pending_setSlots : (s.setSlots l).pending = s.pending := rfl
end setSlots

section setEscalation
variable (x : Escalation)
@[simp] theorem pins_setEscalation : (s.setEscalation x).pins = s.pins := rfl
@[simp] theorem transit_setEscalation : (s.setEscalation x).transit = s.transit := rfl
@[simp] theorem msi_setEscalation : (s.setEscalation x).msi = s.msi := rfl
@[simp] theorem entries_setEscalation : (s.setEscalation x).entries = s.entries := rfl
@[simp] theorem timer_setEscalation : (s.setEscalation x).timer = s.timer := rfl
@[simp] theorem events_setEscalation : (s.setEscalation x).events = s.events := rfl
@[simp] theorem mlc_setEscalation : (s.setEscalation x).mlc = s.mlc := rfl
@[simp] theorem freeCount_setEscalation : (s.setEscalation x).freeCount = s.freeCount := rfl
@[simp] theorem pending_setEscalation : (s.setEscalation x).pending = s.pending := rfl
end setEscalation

section setReply
variable (r : Reply)
@[simp] theorem pins_setReply : (s.setReply r).pins = s.pins := rfl
@[simp] theorem transit_setReply : (s.setReply r).transit = s.transit := rfl
@[simp] theorem msi_setReply : (s.setReply r).msi = s.msi := rfl
@[simp] theorem entries_setReply : (s.setReply r).entries = s.entries := rfl
@[simp] theorem timer_setReply : (s.setReply r).timer = s.timer := rfl
@[simp] theorem esc_setReply : (s.setReply r).esc = s.esc := rfl
@[simp] theorem events_setReply : (s.setReply r).events = s.events := rfl
@[simp] theorem freeCount_setReply : (s.setReply r).freeCount = s.freeCount := rfl
@[simp] theorem pending_setReply : (s.setReply r).pending = s.pending := rfl
end setReply

section setOffered
variable (o : Option Offer)
@[simp] theorem transit_setOffered : (s.setOffered o).transit = s.transit := rfl
@[simp] theorem msi_setOffered : (s.setOffered o).msi = s.msi := rfl
@[simp] theorem entries_setOffered : (s.setOffered o).entries = s.entries := rfl
@[simp] theorem timer_setOffered : (s.setOffered o).timer = s.timer := rfl
@[simp] theorem esc_setOffered : (s.setOffered o).esc = s.esc := rfl
@[simp] theorem events_setOffered : (s.setOffered o).events = s.events := rfl
@[simp] theorem mlc_setOffered : (s.setOffered o).mlc = s.mlc := rfl
@[simp] theorem freeCount_setOffered : (s.setOffered o).freeCount = s.freeCount := rfl
@[simp] theorem pending_setOffered : (s.setOffered o).pending = s.pending := rfl
end setOffered

section setPrst
variable (b : Bool)
@[simp] theorem transit_setPrst : (s.setPrst b).transit = s.transit := rfl
@[simp] theorem msi_setPrst : (s.setPrst b).msi = s.msi := rfl
@[simp] theorem entries_setPrst : (s.setPrst b).entries = s.entries := rfl
@[simp] theorem timer_setPrst : (s.setPrst b).timer = s.timer := rfl
@[simp] theorem esc_setPrst : (s.setPrst b).esc = s.esc := rfl
@[simp] theorem events_setPrst : (s.setPrst b).events = s.events := rfl
@[simp] theorem mlc_setPrst : (s.setPrst b).mlc = s.mlc := rfl
@[simp] theorem freeCount_setPrst : (s.setPrst b).freeCount = s.freeCount := rfl
@[simp] theorem pending_setPrst : (s.setPrst b).pending = s.pending := rfl
end setPrst

section setPorst
variable (b : Bool)
@[simp] theorem transit_setPorst : (s.setPorst b).transit = s.transit := rfl
@[simp] theorem msi_setPorst : (s.setPorst b).msi = s.msi := rfl
@[simp] theorem entries_setPorst : (s.setPorst b).entries = s.entries := rfl
@[simp] theorem timer_setPorst : (s.setPorst b).timer = s.timer := rfl
@[simp] theorem esc_setPorst : (s.setPorst b).esc = s.esc := rfl
@[simp] theorem events_setPorst : (s.setPorst b).events = s.events := rfl
@[simp] theorem mlc_setPorst : (s.setPorst b).mlc = s.mlc := rfl
@[simp] theorem freeCount_setPorst : (s.setPorst b).freeCount = s.freeCount := rfl
@[simp] theorem pending_setPorst : (s.setPorst b).pending = s.pending := rfl
end setPorst

section setDraft
variable (d : Definition)
@[simp] theorem pins_setDraft : (s.setDraft d).pins = s.pins := rfl
@[simp] theorem transit_setDraft : (s.setDraft d).transit = s.transit := rfl
@[simp] theorem msi_setDraft : (s.setDraft d).msi = s.msi := rfl
@[simp] theorem entries_setDraft : (s.setDraft d).entries = s.entries := rfl
@[simp] theorem timer_setDraft : (s.setDraft d).timer = s.timer := rfl
@[simp] theorem esc_setDraft : (s.setDraft d).esc = s.esc := rfl
@[simp] theorem events_setDraft : (s.setDraft d).events = s.events := rfl
@[simp] theorem freeCount_setDraft : (s.setDraft d).freeCount = s.freeCount := rfl
@[simp] theorem pending_setDraft : (s.setDraft d).pending = s.pending := rfl
end setDraft

section setDevice
variable (d : DeviceState)
@[simp] theorem pins_setDevice : (s.setDevice d).pins = s.pins := rfl
@[simp] theorem transit_setDevice : (s.setDevice d).transit = s.transit := rfl
@[simp] theorem msi_setDevice : (s.setDevice d).msi = s.msi := rfl
@[simp] theorem entries_setDevice : (s.setDevice d).entries = s.entries := rfl
@[simp] theorem timer_setDevice : (s.setDevice d).timer = s.timer := rfl
@[simp] theorem events_setDevice : (s.setDevice d).events = s.events := rfl
@[simp] theorem mlc_setDevice : (s.setDevice d).mlc = s.mlc := rfl
@[simp] theorem freeCount_setDevice : (s.setDevice d).freeCount = s.freeCount := rfl
@[simp] theorem pending_setDevice : (s.setDevice d).pending = s.pending := rfl
end setDevice

section setGroupState
variable (sel : Byte) (g : GroupState)
@[simp] theorem pins_setGroupState : (s.setGroupState sel g).pins = s.pins := by
  unfold State.setGroupState; split <;> rfl
@[simp] theorem transit_setGroupState : (s.setGroupState sel g).transit = s.transit := by
  unfold State.setGroupState; split <;> rfl
@[simp] theorem msi_setGroupState : (s.setGroupState sel g).msi = s.msi := by
  unfold State.setGroupState; split <;> rfl
@[simp] theorem entries_setGroupState : (s.setGroupState sel g).entries = s.entries := by
  unfold State.setGroupState; split <;> rfl
@[simp] theorem timer_setGroupState : (s.setGroupState sel g).timer = s.timer := by
  unfold State.setGroupState; split <;> rfl
@[simp] theorem events_setGroupState : (s.setGroupState sel g).events = s.events := by
  unfold State.setGroupState; split <;> rfl
@[simp] theorem mlc_setGroupState : (s.setGroupState sel g).mlc = s.mlc := by
  unfold State.setGroupState; split <;> rfl
@[simp] theorem freeCount_setGroupState : (s.setGroupState sel g).freeCount = s.freeCount := by
  unfold State.setGroupState; split <;> rfl
@[simp] theorem pending_setGroupState : (s.setGroupState sel g).pending = s.pending := by
  unfold State.setGroupState; split <;> rfl
end setGroupState

/-! ### The written field -/

@[simp] theorem slots_setSlots (l : List Slot) : (s.setSlots l).transit.slots = l := rfl
@[simp] theorem draining_setSlots (l : List Slot) : (s.setSlots l).transit.draining = s.transit.draining := rfl
@[simp] theorem esc_setEscalation (x : Escalation) : (s.setEscalation x).esc = x := rfl
@[simp] theorem mlc_setReply (r : Reply) : (s.setReply r).mlc = { s.mlc with reply := r } := rfl
@[simp] theorem mlc_setDraft (d : Definition) : (s.setDraft d).mlc = { s.mlc with draft := d } := rfl
@[simp] theorem esc_setDevice (d : DeviceState) : (s.setDevice d).esc = { s.esc with device := d } := rfl
@[simp] theorem pins_setOffered (o : Option Offer) : (s.setOffered o).pins = { s.pins with offered := o } := rfl
@[simp] theorem pins_setPrst (b : Bool) : (s.setPrst b).pins = { s.pins with prst := b } := rfl
@[simp] theorem pins_setPorst (b : Bool) : (s.setPorst b).pins = { s.pins with porst := b } := rfl
@[simp] theorem entries_setEntry (k : Index) (e : Entry) : (s.setEntry k e).entries = s.entries.set k e := rfl
@[simp] theorem windows_setWindow (k : Index) (w : Window) :
    (s.setWindow k w).timer.windows = s.timer.windows.set k w := rfl
@[simp] theorem divider_setWindow (k : Index) (w : Window) : (s.setWindow k w).timer.divider = s.timer.divider := rfl
@[simp] theorem divider_mapWindows (f : Index → Window → Window) :
    (s.mapWindows f).timer.divider = s.timer.divider := by rw [State.mapWindows]
@[simp] theorem latches_setLatch (k : Index) (l : Latch) :
    (s.setLatch k l).events.latches = s.events.latches.set k l := rfl
@[simp] theorem attention_setLatch (k : Index) (l : Latch) :
    (s.setLatch k l).events.attention = s.events.attention := rfl
@[simp] theorem attention_setAttention (l : List Index) : (s.setAttention l).events.attention = l := rfl
@[simp] theorem latches_setAttention (l : List Index) : (s.setAttention l).events.latches = s.events.latches := rfl

/-! ### Reading one record of a table -/

/-- A table read after one record was written. -/
theorem getElem_set_index {α : Type} {n : Nat} (v : Vector α n) (i j : Fin n) (x : α) :
    (v.set i x)[j] = if i = j then x else v[j] := by
  simp [Vector.getElem_set, Fin.ext_iff]

theorem entry_setEntry (k j : Index) (e : Entry) : (s.setEntry k e).entry j = if k = j then e else s.entry j :=
  getElem_set_index s.entries k j e
@[simp] theorem entry_setEntry_self (k : Index) (e : Entry) : (s.setEntry k e).entry k = e := by
  simp [entry_setEntry]
theorem entry_setEntry_of_ne {k j : Index} (h : k ≠ j) (e : Entry) : (s.setEntry k e).entry j = s.entry j := by
  simp [entry_setEntry, h]
@[simp] theorem entry_mapEntries (f : Index → Entry → Entry) (k : Index) :
    (s.mapEntries f).entry k = f k (s.entry k) := by simp [State.mapEntries, State.entry]

theorem window_setWindow (k j : Index) (w : Window) : (s.setWindow k w).window j = if k = j then w else s.window j :=
  getElem_set_index s.timer.windows k j w
@[simp] theorem window_setWindow_self (k : Index) (w : Window) : (s.setWindow k w).window k = w := by
  simp [window_setWindow]
theorem window_setWindow_of_ne {k j : Index} (h : k ≠ j) (w : Window) :
    (s.setWindow k w).window j = s.window j := by simp [window_setWindow, h]
@[simp] theorem window_mapWindows (f : Index → Window → Window) (k : Index) :
    (s.mapWindows f).window k = f k (s.window k) := by simp [State.mapWindows, State.window]

theorem latch_setLatch (k j : Index) (l : Latch) : (s.setLatch k l).latch j = if k = j then l else s.latch j :=
  getElem_set_index s.events.latches k j l
@[simp] theorem latch_setLatch_self (k : Index) (l : Latch) : (s.setLatch k l).latch k = l := by
  simp [latch_setLatch]
theorem latch_setLatch_of_ne {k j : Index} (h : k ≠ j) (l : Latch) : (s.setLatch k l).latch j = s.latch j := by
  simp [latch_setLatch, h]

/-! ### Reading one record after an update of another block -/

/-- The entry records depend on the table alone. -/
theorem entry_congr {s t : State} (h : t.entries = s.entries) (k : Index) : t.entry k = s.entry k := by
  simp [State.entry, h]
/-- The window records depend on the Window Timer alone. -/
theorem window_congr {s t : State} (h : t.timer = s.timer) (k : Index) : t.window k = s.window k := by
  simp [State.window, h]
/-- The latch records depend on the Event Latch block alone. -/
theorem latch_congr {s t : State} (h : t.events = s.events) (k : Index) : t.latch k = s.latch k := by
  simp [State.latch, h]
/-- The lookup depends on the table alone. -/
theorem lookup_congr {s t : State} (h : t.entries = s.entries) (a : Addr) : t.lookup a = s.lookup a := by
  simp [State.lookup, State.entry, h]
/-- The free slot depends on the queue alone. -/
theorem freeSlot_congr {s t : State} (h : t.transit.slots = s.transit.slots) : t.freeSlot = s.freeSlot := by
  simp [State.freeSlot, State.slotTaken, h]

@[simp] theorem entry_setWindow (k : Index) (w : Window) (j : Index) : (s.setWindow k w).entry j = s.entry j := rfl
@[simp] theorem entry_mapWindows (f : Index → Window → Window) (j : Index) :
    (s.mapWindows f).entry j = s.entry j := entry_congr (entries_mapWindows s f) j
@[simp] theorem entry_setLatch (k : Index) (l : Latch) (j : Index) : (s.setLatch k l).entry j = s.entry j := rfl
@[simp] theorem entry_setAttention (l : List Index) (j : Index) : (s.setAttention l).entry j = s.entry j := rfl
@[simp] theorem entry_setSlots (l : List Slot) (j : Index) : (s.setSlots l).entry j = s.entry j := rfl
@[simp] theorem entry_setEscalation (x : Escalation) (j : Index) : (s.setEscalation x).entry j = s.entry j := rfl
@[simp] theorem entry_setReply (r : Reply) (j : Index) : (s.setReply r).entry j = s.entry j := rfl
@[simp] theorem entry_setOffered (o : Option Offer) (j : Index) : (s.setOffered o).entry j = s.entry j := rfl
@[simp] theorem entry_setPrst (b : Bool) (j : Index) : (s.setPrst b).entry j = s.entry j := rfl
@[simp] theorem entry_setPorst (b : Bool) (j : Index) : (s.setPorst b).entry j = s.entry j := rfl
@[simp] theorem entry_setDraft (d : Definition) (j : Index) : (s.setDraft d).entry j = s.entry j := rfl
@[simp] theorem entry_setDevice (d : DeviceState) (j : Index) : (s.setDevice d).entry j = s.entry j := rfl
@[simp] theorem entry_setGroupState (sel : Byte) (g : GroupState) (j : Index) :
    (s.setGroupState sel g).entry j = s.entry j := entry_congr (entries_setGroupState s sel g) j
@[simp] theorem window_setEntry (k : Index) (e : Entry) (j : Index) : (s.setEntry k e).window j = s.window j := rfl
@[simp] theorem window_mapEntries (f : Index → Entry → Entry) (j : Index) :
    (s.mapEntries f).window j = s.window j := window_congr (timer_mapEntries s f) j
@[simp] theorem window_setLatch (k : Index) (l : Latch) (j : Index) : (s.setLatch k l).window j = s.window j := rfl
@[simp] theorem window_setAttention (l : List Index) (j : Index) : (s.setAttention l).window j = s.window j := rfl
@[simp] theorem window_setSlots (l : List Slot) (j : Index) : (s.setSlots l).window j = s.window j := rfl
@[simp] theorem window_setEscalation (x : Escalation) (j : Index) : (s.setEscalation x).window j = s.window j := rfl
@[simp] theorem window_setReply (r : Reply) (j : Index) : (s.setReply r).window j = s.window j := rfl
@[simp] theorem window_setOffered (o : Option Offer) (j : Index) : (s.setOffered o).window j = s.window j := rfl
@[simp] theorem window_setPrst (b : Bool) (j : Index) : (s.setPrst b).window j = s.window j := rfl
@[simp] theorem window_setPorst (b : Bool) (j : Index) : (s.setPorst b).window j = s.window j := rfl
@[simp] theorem window_setDraft (d : Definition) (j : Index) : (s.setDraft d).window j = s.window j := rfl
@[simp] theorem window_setDevice (d : DeviceState) (j : Index) : (s.setDevice d).window j = s.window j := rfl
@[simp] theorem latch_setEntry (k : Index) (e : Entry) (j : Index) : (s.setEntry k e).latch j = s.latch j := rfl
@[simp] theorem latch_mapEntries (f : Index → Entry → Entry) (j : Index) :
    (s.mapEntries f).latch j = s.latch j := latch_congr (events_mapEntries s f) j
@[simp] theorem latch_setWindow (k : Index) (w : Window) (j : Index) : (s.setWindow k w).latch j = s.latch j := rfl
@[simp] theorem latch_mapWindows (f : Index → Window → Window) (j : Index) :
    (s.mapWindows f).latch j = s.latch j := latch_congr (events_mapWindows s f) j
@[simp] theorem latch_setSlots (l : List Slot) (j : Index) : (s.setSlots l).latch j = s.latch j := rfl
@[simp] theorem latch_setEscalation (x : Escalation) (j : Index) : (s.setEscalation x).latch j = s.latch j := rfl
@[simp] theorem latch_setReply (r : Reply) (j : Index) : (s.setReply r).latch j = s.latch j := rfl
@[simp] theorem latch_setOffered (o : Option Offer) (j : Index) : (s.setOffered o).latch j = s.latch j := rfl
@[simp] theorem latch_setPrst (b : Bool) (j : Index) : (s.setPrst b).latch j = s.latch j := rfl
@[simp] theorem latch_setPorst (b : Bool) (j : Index) : (s.setPorst b).latch j = s.latch j := rfl
@[simp] theorem latch_setDraft (d : Definition) (j : Index) : (s.setDraft d).latch j = s.latch j := rfl
@[simp] theorem latch_setDevice (d : DeviceState) (j : Index) : (s.setDevice d).latch j = s.latch j := rfl
@[simp] theorem latch_setAttention (l : List Index) (j : Index) : (s.setAttention l).latch j = s.latch j := rfl

end Sys2Proof.Machine
end

