-- ==== Sys2Proof/Laws/Ops.lean ====
section
/-! SUPPORT. What each shared operation of Ops.lean does, said once: the blocks it leaves as they were, and what it
writes. The proofs of the statements cite these and do not unfold the operations. -/
namespace Sys2Proof.Machine

/-! ### Address lookup -/

theorem mem_indices (k : Index) : k ∈ indices := List.mem_finRange k

/-- The lookup answers with an entry that covers the address. -/
theorem covers_of_lookup {s : State} {a : Addr} {k : Index} (h : s.lookup a = some k) :
    (s.entry k).covers a = true := by
  have := List.find?_some h
  simpa using this

/-- The lookup answers none exactly when no entry covers the address. -/
theorem lookup_eq_none {s : State} {a : Addr} : s.lookup a = none ↔ ∀ k, (s.entry k).covers a = false := by
  simp [State.lookup, List.find?_eq_none, mem_indices]

/-- With no word covered twice (R15), the lookup answers with the one entry that covers the address. -/
theorem lookup_eq_some {s : State} (one : ∀ i j a, (s.entry i).covers a = true → (s.entry j).covers a = true → i = j)
    {a : Addr} {k : Index} : s.lookup a = some k ↔ (s.entry k).covers a = true := by
  constructor
  · exact covers_of_lookup
  · intro h
    cases hl : s.lookup a with
    | none => rw [lookup_eq_none] at hl; simp [hl k] at h
    | some j => rw [one j k a (covers_of_lookup hl) h]

/-- The lookup reads of the table only which words each entry covers. -/
theorem lookup_eq_of_covers {s t : State} (h : ∀ k a, (t.entry k).covers a = (s.entry k).covers a) (a : Addr) :
    t.lookup a = s.lookup a := by simp [State.lookup, h]

/-- Discarding the pending half keeps the covered words. -/
@[simp] theorem covers_discardPending (e : Entry) (a : Addr) : e.discardPending.covers a = e.covers a := rfl

/-! ### Event latching -/

@[simp] theorem pins_latchEvents (k : Index) (kinds : BitVec 16) (r f : BitVec 32) (c : Option Capture) (s : State) :
    (latchEvents k kinds r f c s).pins = s.pins := by
  unfold latchEvents; dsimp only; split <;> rfl
@[simp] theorem transit_latchEvents (k : Index) (kinds : BitVec 16) (r f : BitVec 32) (c : Option Capture) (s : State) :
    (latchEvents k kinds r f c s).transit = s.transit := by
  unfold latchEvents; dsimp only; split <;> rfl
@[simp] theorem msi_latchEvents (k : Index) (kinds : BitVec 16) (r f : BitVec 32) (c : Option Capture) (s : State) :
    (latchEvents k kinds r f c s).msi = s.msi := by
  unfold latchEvents; dsimp only; split <;> rfl
@[simp] theorem entries_latchEvents (k : Index) (kinds : BitVec 16) (r f : BitVec 32) (c : Option Capture) (s : State) :
    (latchEvents k kinds r f c s).entries = s.entries := by
  unfold latchEvents; dsimp only; split <;> rfl
@[simp] theorem timer_latchEvents (k : Index) (kinds : BitVec 16) (r f : BitVec 32) (c : Option Capture) (s : State) :
    (latchEvents k kinds r f c s).timer = s.timer := by
  unfold latchEvents; dsimp only; split <;> rfl
@[simp] theorem esc_latchEvents (k : Index) (kinds : BitVec 16) (r f : BitVec 32) (c : Option Capture) (s : State) :
    (latchEvents k kinds r f c s).esc = s.esc := by
  unfold latchEvents; dsimp only; split <;> rfl
@[simp] theorem mlc_latchEvents (k : Index) (kinds : BitVec 16) (r f : BitVec 32) (c : Option Capture) (s : State) :
    (latchEvents k kinds r f c s).mlc = s.mlc := by
  unfold latchEvents; dsimp only; split <;> rfl
@[simp] theorem freeCount_latchEvents (k : Index) (kinds : BitVec 16) (r f : BitVec 32) (c : Option Capture) (s : State) :
    (latchEvents k kinds r f c s).freeCount = s.freeCount := by
  unfold latchEvents; dsimp only; split <;> rfl
@[simp] theorem pending_latchEvents (k : Index) (kinds : BitVec 16) (r f : BitVec 32) (c : Option Capture) (s : State) :
    (latchEvents k kinds r f c s).pending = s.pending := by
  unfold latchEvents; dsimp only; split <;> rfl
@[simp] theorem pins_clearLatch (k : Index) (s : State) : (clearLatch k s).pins = s.pins := rfl
@[simp] theorem transit_clearLatch (k : Index) (s : State) : (clearLatch k s).transit = s.transit := rfl
@[simp] theorem msi_clearLatch (k : Index) (s : State) : (clearLatch k s).msi = s.msi := rfl
@[simp] theorem entries_clearLatch (k : Index) (s : State) : (clearLatch k s).entries = s.entries := rfl
@[simp] theorem timer_clearLatch (k : Index) (s : State) : (clearLatch k s).timer = s.timer := rfl
@[simp] theorem esc_clearLatch (k : Index) (s : State) : (clearLatch k s).esc = s.esc := rfl
@[simp] theorem mlc_clearLatch (k : Index) (s : State) : (clearLatch k s).mlc = s.mlc := rfl
@[simp] theorem freeCount_clearLatch (k : Index) (s : State) : (clearLatch k s).freeCount = s.freeCount := rfl
@[simp] theorem pending_clearLatch (k : Index) (s : State) : (clearLatch k s).pending = s.pending := rfl

@[simp] theorem entry_latchEvents (k : Index) (kinds : BitVec 16) (r f : BitVec 32) (c : Option Capture) (s : State)
    (j : Index) : (latchEvents k kinds r f c s).entry j = s.entry j := entry_congr (entries_latchEvents k kinds r f c s) j
@[simp] theorem window_latchEvents (k : Index) (kinds : BitVec 16) (r f : BitVec 32) (c : Option Capture) (s : State)
    (j : Index) : (latchEvents k kinds r f c s).window j = s.window j := window_congr (timer_latchEvents k kinds r f c s) j
@[simp] theorem entry_clearLatch (k : Index) (s : State) (j : Index) : (clearLatch k s).entry j = s.entry j := rfl
@[simp] theorem window_clearLatch (k : Index) (s : State) (j : Index) : (clearLatch k s).window j = s.window j := rfl

/-- The latch records after an operation handed entry `k` kinds: its record is added to, the others stay. -/
theorem latch_latchEvents (k : Index) (kinds : BitVec 16) (r f : BitVec 32) (c : Option Capture) (s : State)
    (j : Index) : (latchEvents k kinds r f c s).latch j = if k = j then (s.latch k).add kinds r f c else s.latch j := by
  unfold latchEvents; dsimp only; split <;> exact latch_setLatch s k j _

/-- The Attention List after an operation handed entry `k` kinds (R168). -/
theorem attention_latchEvents (k : Index) (kinds : BitVec 16) (r f : BitVec 32) (c : Option Capture) (s : State) :
    (latchEvents k kinds r f c s).events.attention =
      if (s.latch k).latched &&& (s.entry k).defn.alertKinds = 0 ∧
          ((s.latch k).latched ||| kinds) &&& (s.entry k).defn.alertKinds ≠ 0
      then s.events.attention ++ [k] else s.events.attention := by
  unfold latchEvents; dsimp only [Latch.add]
  simp only [joinsAttention, Bool.and_eq_true, beq_iff_eq, bne_iff_ne]
  split <;> rfl

theorem setLatch_self (s : State) (k : Index) : s.setLatch k (s.latch k) = s := by simp [State.setLatch, State.latch]
theorem setEntry_self (s : State) (k : Index) : s.setEntry k (s.entry k) = s := by simp [State.setEntry, State.entry]

/-- An operation that hands on nothing leaves the latches as they were. -/
theorem latchEvents_of_nothing {k : Index} {kinds : BitVec 16} {r f : BitVec 32} {c : Option Capture} {s : State}
    (hk : kinds = 0) (hr : r = 0) (hf : f = 0) (hc : c = none) : latchEvents k kinds r f c s = s := by
  subst hk hr hf hc
  have h : (s.latch k).add 0 0 0 none = s.latch k := by simp [Latch.add]
  unfold latchEvents
  dsimp only
  rw [h]
  simp [joinsAttention, setLatch_self]

/-- `handed` is what `latchEvents` does to the latches. -/
theorem handed_latchEvents (k : Index) (kinds : BitVec 16) (r f : BitVec 32) (c : Option Capture) (s : State) :
    handed k kinds r f c s (latchEvents k kinds r f c s) := by
  refine ⟨by simp [latch_latchEvents, Latch.add], fun j hj => ?_, attention_latchEvents k kinds r f c s⟩
  simp [latch_latchEvents, Ne.symm hj]

/-- `handed` looks at the latches of both states and at the alert kinds of the first alone. -/
theorem handed_congr {k : Index} {kinds : BitVec 16} {r f : BitVec 32} {c : Option Capture} {s s' t t' : State}
    (hs : s'.events = s.events) (ha : (s'.entry k).defn.alertKinds = (s.entry k).defn.alertKinds)
    (ht : t'.events = t.events) (h : handed k kinds r f c s t) : handed k kinds r f c s' t' := by
  have hl : ∀ j, s'.latch j = s.latch j := latch_congr hs
  have hl' : ∀ j, t'.latch j = t.latch j := latch_congr ht
  unfold handed at *
  simp only [hl, hl', ha, hs, ht]
  exact h

/-- The latch records after a record was cleared. -/
theorem latch_clearLatch (k : Index) (s : State) (j : Index) :
    (clearLatch k s).latch j = if k = j then clearedLatch else s.latch j := latch_setLatch s k j _
@[simp] theorem attention_clearLatch (k : Index) (s : State) :
    (clearLatch k s).events.attention = s.events.attention.filter (· != k) := rfl

/-! ### Placing and issuing slots -/

@[simp] theorem pins_placeSlot (x : Slot) (s : State) : (placeSlot x s).pins = s.pins := rfl
@[simp] theorem msi_placeSlot (x : Slot) (s : State) : (placeSlot x s).msi = s.msi := rfl
@[simp] theorem entries_placeSlot (x : Slot) (s : State) : (placeSlot x s).entries = s.entries := rfl
@[simp] theorem timer_placeSlot (x : Slot) (s : State) : (placeSlot x s).timer = s.timer := rfl
@[simp] theorem esc_placeSlot (x : Slot) (s : State) : (placeSlot x s).esc = s.esc := rfl
@[simp] theorem events_placeSlot (x : Slot) (s : State) : (placeSlot x s).events = s.events := rfl
@[simp] theorem mlc_placeSlot (x : Slot) (s : State) : (placeSlot x s).mlc = s.mlc := rfl
@[simp] theorem freeCount_placeSlot (x : Slot) (s : State) : (placeSlot x s).freeCount = s.freeCount := rfl
@[simp] theorem pending_placeSlot (x : Slot) (s : State) : (placeSlot x s).pending = s.pending := rfl
@[simp] theorem draining_placeSlot (x : Slot) (s : State) :
    (placeSlot x s).transit.draining = s.transit.draining := rfl
@[simp] theorem entry_placeSlot (x : Slot) (s : State) (j : Index) : (placeSlot x s).entry j = s.entry j := rfl
@[simp] theorem window_placeSlot (x : Slot) (s : State) (j : Index) : (placeSlot x s).window j = s.window j := rfl
@[simp] theorem latch_placeSlot (x : Slot) (s : State) (j : Index) : (placeSlot x s).latch j = s.latch j := rfl
/-- The queue after a slot was placed at its tail. -/
theorem slots_placeSlot (x : Slot) (s : State) : (placeSlot x s).transit.slots = s.transit.slots ++
    [{ x with number := s.freeSlot, progress := if x.disposition.needsMemory then .decided else .done }] := rfl

@[simp] theorem pins_issueOldest  (s : State) :
    (issueOldest s).pins = s.pins := by
  unfold issueOldest; split <;> rfl
@[simp] theorem entries_issueOldest  (s : State) :
    (issueOldest s).entries = s.entries := by
  unfold issueOldest; split <;> rfl
@[simp] theorem timer_issueOldest  (s : State) :
    (issueOldest s).timer = s.timer := by
  unfold issueOldest; split <;> rfl
@[simp] theorem esc_issueOldest  (s : State) : (issueOldest s).esc = s.esc := by
  unfold issueOldest; split <;> rfl
@[simp] theorem events_issueOldest  (s : State) :
    (issueOldest s).events = s.events := by
  unfold issueOldest; split <;> rfl
@[simp] theorem mlc_issueOldest  (s : State) : (issueOldest s).mlc = s.mlc := by
  unfold issueOldest; split <;> rfl
@[simp] theorem freeCount_issueOldest  (s : State) :
    (issueOldest s).freeCount = s.freeCount := by
  unfold issueOldest; split <;> rfl
@[simp] theorem pending_issueOldest  (s : State) :
    (issueOldest s).pending = s.pending := by
  unfold issueOldest; split <;> rfl
@[simp] theorem pins_placeIssued (x : Slot) (s : State) : (placeIssued x s).pins = s.pins := by
  simp [placeIssued]
@[simp] theorem entries_placeIssued (x : Slot) (s : State) :
    (placeIssued x s).entries = s.entries := by
  simp [placeIssued]
@[simp] theorem timer_placeIssued (x : Slot) (s : State) :
    (placeIssued x s).timer = s.timer := by
  simp [placeIssued]
@[simp] theorem esc_placeIssued (x : Slot) (s : State) : (placeIssued x s).esc = s.esc := by
  simp [placeIssued]
@[simp] theorem events_placeIssued (x : Slot) (s : State) :
    (placeIssued x s).events = s.events := by
  simp [placeIssued]
@[simp] theorem mlc_placeIssued (x : Slot) (s : State) : (placeIssued x s).mlc = s.mlc := by
  simp [placeIssued]
@[simp] theorem freeCount_placeIssued (x : Slot) (s : State) :
    (placeIssued x s).freeCount = s.freeCount := by
  simp [placeIssued]
@[simp] theorem pending_placeIssued (x : Slot) (s : State) :
    (placeIssued x s).pending = s.pending := by
  simp [placeIssued]
@[simp] theorem outstanding_issueOldest (s : State) : (issueOldest s).msi.outstanding = s.msi.outstanding := by
  unfold issueOldest; split <;> rfl
@[simp] theorem draining_issueOldest (s : State) : (issueOldest s).transit.draining = s.transit.draining := by
  unfold issueOldest; split <;> rfl

/-- The first DECIDED slot of a queue becomes ISSUED; those before and behind it stay. -/
theorem issueFirst_append {before behind : List Slot} {x : Slot} (hb : ∀ y ∈ before, y.progress ≠ .decided)
    (hx : x.progress = .decided) : issueFirst (before ++ x :: behind) = before ++ x.toIssued :: behind := by
  induction before with
  | nil => simp [issueFirst, hx]
  | cons y ys ih =>
    have hy : y.progress ≠ .decided := hb y (by simp)
    simp [issueFirst, hy, ih fun z hz => hb z (by simp [hz])]

/-- A queue with no DECIDED slot issues nothing. -/
theorem issueFirst_of_none {slots : List Slot} (h : ∀ y ∈ slots, y.progress ≠ .decided) : issueFirst slots = slots := by
  induction slots with
  | nil => rfl
  | cons y ys ih => simp [issueFirst, h y (by simp), ih fun z hz => h z (by simp [hz])]

/-- The oldest DECIDED slot is the first of the queue. -/
theorem oldestDecided_append {s : State} {before behind : List Slot} {x : Slot}
    (h : s.transit.slots = before ++ x :: behind) (hb : ∀ y ∈ before, y.progress ≠ .decided)
    (hx : x.progress = .decided) : s.oldestDecided = some x := by
  have : before.find? (fun y => y.progress == .decided) = none := by
    simpa [List.find?_eq_none] using hb
  simp [State.oldestDecided, h, List.find?_append, this, hx]

/-- No slot is DECIDED exactly when the queue has no oldest one. -/
theorem oldestDecided_eq_none {s : State} :
    s.oldestDecided = none ↔ ∀ y ∈ s.transit.slots, y.progress ≠ .decided := by
  simp [State.oldestDecided, List.find?_eq_none]

/-- Issuing when no slot is DECIDED changes nothing. -/
theorem issueOldest_of_none {s : State} (h : ∀ y ∈ s.transit.slots, y.progress ≠ .decided) : issueOldest s = s := by
  simp [issueOldest, oldestDecided_eq_none.mpr h]

/-- Issuing the oldest DECIDED slot. -/
theorem issueOldest_of_append {s : State} {before behind : List Slot} {x : Slot}
    (h : s.transit.slots = before ++ x :: behind) (hb : ∀ y ∈ before, y.progress ≠ .decided)
    (hx : x.progress = .decided) : issueOldest s = { s with
      transit := { s.transit with slots := before ++ x.toIssued :: behind }, msi := { s.msi with stage := x.accesses } } := by
  simp only [issueOldest, oldestDecided_append h hb hx, h, issueFirst_append hb hx]

/-- A slot placed FORWARD when no other is DECIDED is issued at once (R28). -/
theorem placeIssued_eq {x : Slot} {s : State} (hf : x.disposition = .forward)
    (h : ∀ y ∈ s.transit.slots, y.progress ≠ .decided) :
    placeIssued x s = { s with
      transit := { s.transit with slots := s.transit.slots ++
        [{ x with number := s.freeSlot, progress := .issued
                  awaited := ({ x with number := s.freeSlot, progress := .decided } : Slot).accesses.length }] }
      msi := { s.msi with
        stage := ({ x with number := s.freeSlot, progress := .decided } : Slot).accesses } } := by
  have hn : x.disposition.needsMemory = true := by rw [hf]; rfl
  rw [placeIssued, issueOldest_of_append (before := s.transit.slots) (behind := [])
    (x := { x with number := s.freeSlot, progress := .decided }) (by simp [slots_placeSlot, hn]) h rfl]
  rfl

/-! ### Conversions -/

/-- The words of a slot include its word address and the words its accesses reach. -/
theorem addr_mem_words (x : Slot) : x.addr ∈ x.words := List.mem_cons_self
theorem access_mem_words {x : Slot} {a : Access} (h : a ∈ x.accesses) : a.addr ∈ x.words :=
  List.mem_cons_of_mem _ (List.mem_map_of_mem h)

/-- A slot that is not DECIDED, or has no covered word among its words, is not converted by a failure (R40, R42). -/
theorem convertForFailure_of_not {k : Index} {e : Entry} {poison : Word} {x : Slot}
    (h : x.progress ≠ .decided ∨ ∀ w ∈ x.words, e.covers w = false) : convertForFailure k e poison x = x := by
  rw [convertForFailure, if_neg]
  rw [Bool.and_eq_true, List.any_eq_true]
  rintro ⟨hd, w, hw, hc⟩
  rcases h with h | h
  · exact h (by simpa using hd)
  · rw [h w hw] at hc; cases hc

@[simp] theorem number_convertForFailure (k : Index) (e : Entry) (p : Word) (x : Slot) :
    (convertForFailure k e p x).number = x.number := by
  unfold convertForFailure
  repeat' split
  all_goals rfl
@[simp] theorem number_convertForLockdown (s : State) (x : Slot) : (convertForLockdown s x).number = x.number := by
  unfold convertForLockdown
  repeat' split
  all_goals rfl

/-- What a failure's conversion makes of a slot: itself, when it is not DECIDED, has no covered word, or is a read under
PASS; else DROPPED or POISONED (R40, R42). -/
theorem convertForFailure_cases (k : Index) (e : Entry) (p : Word) (x : Slot) :
    (convertForFailure k e p x = x ∧
      (x.progress = .decided → (∀ w ∈ x.words, e.covers w = false) ∨ x.kind = .read)) ∨
    (x.progress = .decided ∧ (∃ w ∈ x.words, e.covers w = true) ∧
      (convertForFailure k e p x = x.toDropped k e.defn ∨
        ∃ a, convertForFailure k e p x = x.toPoisoned k e.defn p a)) := by
  by_cases h : x.progress = .decided ∧ ∃ w ∈ x.words, e.covers w = true
  · rw [convertForFailure, if_pos (by rw [Bool.and_eq_true, List.any_eq_true]; exact ⟨by simp [h.1], h.2⟩)]
    split
    · exact .inr ⟨h.1, h.2, .inl rfl⟩
    · rename_i hk _; exact .inl ⟨rfl, fun _ => .inr hk⟩
    · exact .inr ⟨h.1, h.2, .inr ⟨_, rfl⟩⟩
    · exact .inr ⟨h.1, h.2, .inr ⟨_, rfl⟩⟩
  · have hn : x.progress = .decided → ∀ w ∈ x.words, e.covers w = false := fun hd w hw =>
      Bool.eq_false_iff.mpr fun hc => h ⟨hd, w, hw, hc⟩
    refine .inl ⟨convertForFailure_of_not ?_, fun hd => .inl (hn hd)⟩
    by_cases hd : x.progress = .decided
    · exact .inr (hn hd)
    · exact .inl hd

/-- What the conversion at the entry into LOCKDOWN makes of a slot: itself, when it is not DECIDED or no entry covers one
of its words; else DROPPED or POISONED (R41, R42). -/
theorem convertForLockdown_cases (s : State) (x : Slot) :
    (convertForLockdown s x = x ∧ (x.progress = .decided → ∀ w ∈ x.words, s.lookup w = none)) ∨
    (x.progress = .decided ∧ ∃ w ∈ x.words, ∃ k, s.lookup w = some k ∧
      (convertForLockdown s x = x.toDropped k (s.entry k).defn ∨
        ∃ a, convertForLockdown s x = x.toPoisoned k (s.entry k).defn s.mlc.poison a)) := by
  by_cases h : x.progress = .decided
  · simp only [convertForLockdown, h, beq_self_eq_true, if_true]
    cases hl : x.words.findSome? s.lookup with
    | none => exact .inl ⟨rfl, fun _ => List.findSome?_eq_none_iff.mp hl⟩
    | some k =>
      obtain ⟨w, hw, hk⟩ := List.exists_of_findSome?_eq_some hl
      refine .inr ⟨trivial, w, hw, k, hk, ?_⟩
      dsimp only
      split
      · exact .inl rfl
      · exact .inr ⟨_, rfl⟩
  · exact .inl ⟨by simp [convertForLockdown, h], fun hd => absurd hd h⟩

/-- The conversion at the entry into LOCKDOWN reads the static fields, which words are covered, and the poison word. -/
theorem convertForLockdown_congr {s t : State} (hd : ∀ k, (t.entry k).defn = (s.entry k).defn)
    (hl : ∀ a, t.lookup a = s.lookup a) (hp : t.mlc.poison = s.mlc.poison) :
    convertForLockdown t = convertForLockdown s := by
  funext x
  simp only [convertForLockdown, funext hl, hd, hp]

@[simp] theorem pins_failureConversion (k : Index) (s : State) : (failureConversion k s).pins = s.pins := rfl
@[simp] theorem msi_failureConversion (k : Index) (s : State) : (failureConversion k s).msi = s.msi := rfl
@[simp] theorem entries_failureConversion (k : Index) (s : State) : (failureConversion k s).entries = s.entries := rfl
@[simp] theorem timer_failureConversion (k : Index) (s : State) : (failureConversion k s).timer = s.timer := rfl
@[simp] theorem esc_failureConversion (k : Index) (s : State) : (failureConversion k s).esc = s.esc := rfl
@[simp] theorem events_failureConversion (k : Index) (s : State) : (failureConversion k s).events = s.events := rfl
@[simp] theorem mlc_failureConversion (k : Index) (s : State) : (failureConversion k s).mlc = s.mlc := rfl
@[simp] theorem freeCount_failureConversion (k : Index) (s : State) :
    (failureConversion k s).freeCount = s.freeCount := rfl
@[simp] theorem pending_failureConversion (k : Index) (s : State) : (failureConversion k s).pending = s.pending := rfl
@[simp] theorem pins_lockdownConversion  (s : State) : (lockdownConversion s).pins = s.pins := rfl
@[simp] theorem msi_lockdownConversion  (s : State) : (lockdownConversion s).msi = s.msi := rfl
@[simp] theorem entries_lockdownConversion  (s : State) : (lockdownConversion s).entries = s.entries := rfl
@[simp] theorem timer_lockdownConversion  (s : State) : (lockdownConversion s).timer = s.timer := rfl
@[simp] theorem esc_lockdownConversion  (s : State) : (lockdownConversion s).esc = s.esc := rfl
@[simp] theorem events_lockdownConversion  (s : State) : (lockdownConversion s).events = s.events := rfl
@[simp] theorem mlc_lockdownConversion  (s : State) : (lockdownConversion s).mlc = s.mlc := rfl
@[simp] theorem freeCount_lockdownConversion  (s : State) : (lockdownConversion s).freeCount = s.freeCount := rfl
@[simp] theorem pending_lockdownConversion  (s : State) : (lockdownConversion s).pending = s.pending := rfl
@[simp] theorem slots_failureConversion (k : Index) (s : State) : (failureConversion k s).transit.slots =
    s.transit.slots.map (convertForFailure k (s.entry k) s.mlc.poison) := rfl
@[simp] theorem draining_failureConversion (k : Index) (s : State) :
    (failureConversion k s).transit.draining = s.transit.draining := rfl
@[simp] theorem entry_failureConversion (k : Index) (s : State) (j : Index) :
    (failureConversion k s).entry j = s.entry j := rfl
@[simp] theorem window_failureConversion (k : Index) (s : State) (j : Index) :
    (failureConversion k s).window j = s.window j := rfl
@[simp] theorem latch_failureConversion (k : Index) (s : State) (j : Index) :
    (failureConversion k s).latch j = s.latch j := rfl
@[simp] theorem slots_lockdownConversion (s : State) :
    (lockdownConversion s).transit.slots = s.transit.slots.map (convertForLockdown s) := rfl
@[simp] theorem draining_lockdownConversion (s : State) :
    (lockdownConversion s).transit.draining = s.transit.draining := rfl
@[simp] theorem entry_lockdownConversion (s : State) (j : Index) : (lockdownConversion s).entry j = s.entry j := rfl

/-! ### The entry into LOCKDOWN and the failure of an entry -/

@[simp] theorem pins_enterLockdown (r : LockdownReason) (s : State) :
    (enterLockdown r s).pins = s.pins := by simp [enterLockdown]
@[simp] theorem msi_enterLockdown (r : LockdownReason) (s : State) :
    (enterLockdown r s).msi = s.msi := by simp [enterLockdown]
@[simp] theorem timer_enterLockdown (r : LockdownReason) (s : State) :
    (enterLockdown r s).timer = s.timer := by simp [enterLockdown]
@[simp] theorem events_enterLockdown (r : LockdownReason) (s : State) :
    (enterLockdown r s).events = s.events := by simp [enterLockdown]
@[simp] theorem mlc_enterLockdown (r : LockdownReason) (s : State) :
    (enterLockdown r s).mlc = s.mlc := by simp [enterLockdown]
@[simp] theorem freeCount_enterLockdown (r : LockdownReason) (s : State) :
    (enterLockdown r s).freeCount = s.freeCount := by simp [enterLockdown]
@[simp] theorem pending_enterLockdown (r : LockdownReason) (s : State) :
    (enterLockdown r s).pending = s.pending := by simp [enterLockdown]
@[simp] theorem esc_enterLockdown (r : LockdownReason) (s : State) : (enterLockdown r s).esc = s.esc.locked r := by
  simp [enterLockdown]
@[simp] theorem draining_enterLockdown (r : LockdownReason) (s : State) :
    (enterLockdown r s).transit.draining = s.transit.draining := by simp [enterLockdown]
/-- Every pending half is discarded and no entry changes otherwise (R151). -/
@[simp] theorem entry_enterLockdown (r : LockdownReason) (s : State) (k : Index) :
    (enterLockdown r s).entry k = (s.entry k).discardPending := by simp [enterLockdown]
@[simp] theorem window_enterLockdown (r : LockdownReason) (s : State) (k : Index) :
    (enterLockdown r s).window k = s.window k := window_congr (timer_enterLockdown r s) k
@[simp] theorem latch_enterLockdown (r : LockdownReason) (s : State) (k : Index) :
    (enterLockdown r s).latch k = s.latch k := latch_congr (events_enterLockdown r s) k
@[simp] theorem lookup_enterLockdown (r : LockdownReason) (s : State) (a : Addr) :
    (enterLockdown r s).lookup a = s.lookup a := lookup_eq_of_covers (by simp) a
/-- The queue after the entry into LOCKDOWN: converted by the table as it stood (R41). -/
theorem slots_enterLockdown (r : LockdownReason) (s : State) :
    (enterLockdown r s).transit.slots = s.transit.slots.map (convertForLockdown s) := by
  have h : convertForLockdown ((s.mapEntries fun _ e => e.discardPending).setEscalation (s.esc.locked r)) =
      convertForLockdown s := convertForLockdown_congr (by simp [Entry.discardPending])
    (lookup_eq_of_covers (by simp)) (by simp)
  simp [enterLockdown, h]

@[simp] theorem pins_takeFailure (k : Index) (s : State) :
    (takeFailure k s).pins = s.pins := by
  unfold takeFailure; dsimp only; split <;> simp
@[simp] theorem msi_takeFailure (k : Index) (s : State) :
    (takeFailure k s).msi = s.msi := by
  unfold takeFailure; dsimp only; split <;> simp
@[simp] theorem timer_takeFailure (k : Index) (s : State) :
    (takeFailure k s).timer = s.timer := by
  unfold takeFailure; dsimp only; split <;> simp
@[simp] theorem events_takeFailure (k : Index) (s : State) :
    (takeFailure k s).events = s.events := by
  unfold takeFailure; dsimp only; split <;> simp
@[simp] theorem mlc_takeFailure (k : Index) (s : State) :
    (takeFailure k s).mlc = s.mlc := by
  unfold takeFailure; dsimp only; split <;> simp
@[simp] theorem freeCount_takeFailure (k : Index) (s : State) :
    (takeFailure k s).freeCount = s.freeCount := by
  unfold takeFailure; dsimp only; split <;> simp
@[simp] theorem pending_takeFailure (k : Index) (s : State) :
    (takeFailure k s).pending = s.pending := by
  unfold takeFailure; dsimp only; split <;> simp
@[simp] theorem draining_takeFailure (k : Index) (s : State) :
    (takeFailure k s).transit.draining = s.transit.draining := by
  unfold takeFailure; dsimp only; split <;> simp
@[simp] theorem window_takeFailure (k : Index) (s : State) (j : Index) :
    (takeFailure k s).window j = s.window j := window_congr (timer_takeFailure k s) j
@[simp] theorem latch_takeFailure (k : Index) (s : State) (j : Index) :
    (takeFailure k s).latch j = s.latch j := latch_congr (events_takeFailure k s) j

/-- A failure whose reaction is not LOCKDOWN: the reaction on the groups and the conversion of R40 (R155, R156). -/
theorem takeFailure_of_ne {k : Index} {s : State} (h : (s.entry k).defn.reaction ≠ .lockdown) :
    takeFailure k s = failureConversion k (s.setEscalation (applyReaction k (s.entry k).defn.reaction s.esc)) := by
  simp [takeFailure, h]
/-- A failure with reaction LOCKDOWN: the same, and then the entry into LOCKDOWN (R152, R155, R156). -/
theorem takeFailure_of_lockdown {k : Index} {s : State} (h : (s.entry k).defn.reaction = .lockdown) :
    takeFailure k s = enterLockdown (.entry k)
      (failureConversion k (s.setEscalation (applyReaction k .lockdown s.esc))) := by
  simp [takeFailure, h]

/-- A failure leaves every entry as it was, but for the pending halves that LOCKDOWN discards. -/
theorem entry_takeFailure (k : Index) (s : State) (j : Index) : (takeFailure k s).entry j =
    if (s.entry k).defn.reaction = .lockdown then (s.entry j).discardPending else s.entry j := by
  by_cases h : (s.entry k).defn.reaction = .lockdown
  · rw [takeFailure_of_lockdown h, if_pos h, entry_enterLockdown, entry_failureConversion]; rfl
  · rw [takeFailure_of_ne h, if_neg h, entry_failureConversion]; rfl

/-! ### Lateness -/

/-- A LATE below the fail threshold: a stale period begins (R115, R124, R129, R130). -/
theorem lateExpiry_of_ne {k : Index} {s : State} (h : (s.entry k).faultCounter + 1 ≠ (s.entry k).defn.threshold) :
    lateExpiry k s = latchEvents k (lateKinds (s.entry k)) 0 0 none
      ((s.setEntry k (s.entry k).late).setWindow k (staleWindow (s.entry k).defn)) := by
  simp [lateExpiry, h]
/-- A LATE at the fail threshold: the record is STOPPED and the failure is taken (R132). -/
theorem lateExpiry_of_eq {k : Index} {s : State} (h : (s.entry k).faultCounter + 1 = (s.entry k).defn.threshold) :
    lateExpiry k s = takeFailure k (latchEvents k (lateKinds (s.entry k)) 0 0 none
      ((s.setEntry k (s.entry k).late).setWindow k stoppedWindow)) := by
  simp [lateExpiry, h]

@[simp] theorem pins_lateExpiry (k : Index) (s : State) :
    (lateExpiry k s).pins = s.pins := by
  unfold lateExpiry; dsimp only; split <;> simp
@[simp] theorem msi_lateExpiry (k : Index) (s : State) :
    (lateExpiry k s).msi = s.msi := by
  unfold lateExpiry; dsimp only; split <;> simp
@[simp] theorem mlc_lateExpiry (k : Index) (s : State) :
    (lateExpiry k s).mlc = s.mlc := by
  unfold lateExpiry; dsimp only; split <;> simp
@[simp] theorem freeCount_lateExpiry (k : Index) (s : State) :
    (lateExpiry k s).freeCount = s.freeCount := by
  unfold lateExpiry; dsimp only; split <;> simp
@[simp] theorem pending_lateExpiry (k : Index) (s : State) :
    (lateExpiry k s).pending = s.pending := by
  unfold lateExpiry; dsimp only; split <;> simp
@[simp] theorem divider_lateExpiry (k : Index) (s : State) :
    (lateExpiry k s).timer.divider = s.timer.divider := by
  unfold lateExpiry; dsimp only; split <;> simp

/-! ### Events that do not come -/

@[simp] theorem onlyIf_true (f : State → State) (s : State) : onlyIf true f s = f s := rfl
@[simp] theorem onlyIf_false (f : State → State) (s : State) : onlyIf false f s = s := rfl
/-- An event comes or it does not. -/
theorem onlyIf_cases (c : Bool) (f : State → State) (s : State) :
    c = true ∧ onlyIf c f s = f s ∨ c = false ∧ onlyIf c f s = s := by cases c <;> simp

end Sys2Proof.Machine
end

