-- ==== Sys2Proof/Laws/Arrivals.lean ====
section
/-! SUPPORT. What an arrival does: the acceptance of a request, and what an inspection result changes when it is applied
whole (R50). -/
namespace Sys2Proof.Machine

/-! ### The rows -/

/-- A write that can be accepted, with no other request held, is accepted. -/
theorem exec_write_of_takes {s : State} {r : WriteRequest} (h : s.takes (.write r)) :
    exec r.command s = .next (acceptWrite r (s.setOffered none)) := by
  obtain ⟨hc, h | h⟩ := h <;>
    simp [exec, WriteRequest.command, execWriteArrival, offer, h, acceptOrHold, hc, acceptOffer]
/-- A read that can be accepted, with no other request held, is accepted. -/
theorem exec_read_of_takes {s : State} {r : ReadRequest} (h : s.takes (.read r)) :
    exec r.command s = .next (acceptRead r (s.setOffered none)) := by
  obtain ⟨hc, h | h⟩ := h <;>
    simp [exec, ReadRequest.command, execReadArrival, offer, h, acceptOrHold, hc, acceptOffer]

/-- In CONFIGURE a request is accepted only when no slot is DECIDED and the request stage is empty (R28). -/
theorem noneDecided_of_canAccept {s : State} (h : s.canAccept = true) (hd : s.esc.device = .configure) :
    (∀ y ∈ s.transit.slots, y.progress ≠ .decided) ∧ s.msi.stage = [] := by
  have h2 := h
  simp only [State.canAccept, hd, Bool.and_eq_true, Bool.or_eq_true, bne_self_eq_false, Bool.false_eq_true, false_or,
    Option.isNone_iff_eq_none, List.isEmpty_iff] at h2
  exact ⟨oldestDecided_eq_none.mp h2.2.1, h2.2.2⟩

/-- The acceptance of a write in SUPERVISE at a word of an entry whose writes are inspected. -/
theorem acceptWrite_of_supervised {s : State} {r : WriteRequest} {k : Index} (hd : s.esc.device = .supervise)
    (hl : s.lookup r.addr = some k) (hs : (s.entry k).state.supervised = true) :
    acceptWrite r s = applyInspection k r (inspect (s.entry k) r) s := by
  simp [acceptWrite, hl, hd, hs]

/-- A write of a request that is inspected at entry `k`. -/
theorem exec_write_of_inspects {s : State} {r : WriteRequest} {k : Index} (h : s.inspects r k) :
    exec r.command s = .next (applyInspection k r (inspect (s.entry k) r) (s.setOffered none)) := by
  rw [exec_write_of_takes h.1]
  have hs : (s.entry k).state.supervised = true := by rcases h.2.2.2 with h | h | h | h <;> rw [h] <;> rfl
  exact congrArg _ (acceptWrite_of_supervised (s := s.setOffered none) h.2.1 h.2.2.1 hs)

/-! ### An inspection result applied whole -/

@[simp] theorem pins_applyTiming (k : Index) (x : Inspection) (s : State) : (applyTiming k x s).pins = s.pins := by
  unfold applyTiming; repeat' split
  all_goals rfl
@[simp] theorem transit_applyTiming (k : Index) (x : Inspection) (s : State) :
    (applyTiming k x s).transit = s.transit := by
  unfold applyTiming; repeat' split
  all_goals rfl
@[simp] theorem msi_applyTiming (k : Index) (x : Inspection) (s : State) : (applyTiming k x s).msi = s.msi := by
  unfold applyTiming; repeat' split
  all_goals rfl
@[simp] theorem esc_applyTiming (k : Index) (x : Inspection) (s : State) : (applyTiming k x s).esc = s.esc := by
  unfold applyTiming; repeat' split
  all_goals rfl
@[simp] theorem events_applyTiming (k : Index) (x : Inspection) (s : State) :
    (applyTiming k x s).events = s.events := by
  unfold applyTiming; repeat' split
  all_goals rfl
@[simp] theorem mlc_applyTiming (k : Index) (x : Inspection) (s : State) : (applyTiming k x s).mlc = s.mlc := by
  unfold applyTiming; repeat' split
  all_goals rfl
@[simp] theorem freeCount_applyTiming (k : Index) (x : Inspection) (s : State) :
    (applyTiming k x s).freeCount = s.freeCount := by
  unfold applyTiming; repeat' split
  all_goals rfl
@[simp] theorem pending_applyTiming (k : Index) (x : Inspection) (s : State) :
    (applyTiming k x s).pending = s.pending := by
  unfold applyTiming; repeat' split
  all_goals rfl
@[simp] theorem divider_applyTiming (k : Index) (x : Inspection) (s : State) :
    (applyTiming k x s).timer.divider = s.timer.divider := by
  unfold applyTiming; repeat' split
  all_goals rfl
@[simp] theorem latch_applyTiming (k : Index) (x : Inspection) (s : State) (j : Index) :
    (applyTiming k x s).latch j = s.latch j := latch_congr (events_applyTiming k x s) j
@[simp] theorem freeSlot_applyTiming (k : Index) (x : Inspection) (s : State) :
    (applyTiming k x s).freeSlot = s.freeSlot := freeSlot_congr (by simp)

/-- The table after the timing action: the entry as the result leaves it, with the phase of a cycle restart (R125). -/
theorem entries_applyTiming (k : Index) (x : Inspection) (s : State) : (applyTiming k x s).entries =
    s.entries.set k (if x.fails = false ∧ x.restart = true then { x.next with phase := restartPhase x.next.defn }
      else x.next) := by
  unfold applyTiming
  cases x.fails <;> cases x.restart <;> simp
/-- One entry after the timing action. -/
theorem entry_applyTiming (k : Index) (x : Inspection) (s : State) (j : Index) : (applyTiming k x s).entry j =
    if k = j then (if x.fails = false ∧ x.restart = true then { x.next with phase := restartPhase x.next.defn }
      else x.next) else s.entry j := by
  unfold applyTiming
  cases x.fails <;> cases x.restart <;> simp [entry_setEntry]
/-- The timing action leaves the static part that the result holds. -/
theorem defn_applyTiming (k : Index) (x : Inspection) (s : State) :
    ((applyTiming k x s).entry k).defn = x.next.defn := by
  rw [entry_applyTiming, if_pos rfl]; split <;> rfl
/-- The window records after the timing action: STOPPED at a failure, a new cycle at a restart. -/
theorem windows_applyTiming (k : Index) (x : Inspection) (s : State) : (applyTiming k x s).timer.windows =
    if x.fails = true then s.timer.windows.set k stoppedWindow
    else if x.restart = true then s.timer.windows.set k (cycleWindow x.next.defn) else s.timer.windows := by
  unfold applyTiming
  cases x.fails <;> cases x.restart <;> simp

/-- A result that fails no entry: the timing action, the slot and the latches, and nothing of the Escalation Unit. -/
theorem applyInspection_of_not_fails {k : Index} {r : WriteRequest} {x : Inspection} {s : State}
    (h : x.fails = false) : applyInspection k r x s =
      latchEvents k (x.faults ||| x.notices ||| kindIf x.tornAtFailure .torn) x.rise x.fall x.capture
        (placeSlot (inspectedSlot k x.next.defn r x) (applyTiming k x s)) := by
  simp [applyInspection, h]
/-- A result that fails its entry: the same, and then the failure is taken. -/
theorem applyInspection_of_fails {k : Index} {r : WriteRequest} {x : Inspection} {s : State} (h : x.fails = true) :
    applyInspection k r x s = takeFailure k
      (latchEvents k (x.faults ||| x.notices ||| kindIf x.tornAtFailure .torn) x.rise x.fall x.capture
        (placeSlot (inspectedSlot k x.next.defn r x) (applyTiming k x s))) := by
  simp [applyInspection, h]

/-- A result that latches nothing and fails no entry: the timing action and the slot (R53, R57). -/
theorem applyInspection_of_quiet {k : Index} {r : WriteRequest} {x : Inspection} {s : State} (h : x.fails = false)
    (hf : x.faults = 0) (hn : x.notices = 0) (ht : x.tornAtFailure = false) (hr : x.rise = 0) (hd : x.fall = 0)
    (hc : x.capture = none) :
    applyInspection k r x s = placeSlot (inspectedSlot k x.next.defn r x) (applyTiming k x s) := by
  rw [applyInspection_of_not_fails h, latchEvents_of_nothing (by simp [hf, hn, ht, kindIf]) hr hd hc]

@[simp] theorem pins_applyInspection (k : Index) (r : WriteRequest) (x : Inspection) (s : State) :
    (applyInspection k r x s).pins = s.pins := by
  unfold applyInspection; dsimp only; split <;> simp
@[simp] theorem msi_applyInspection (k : Index) (r : WriteRequest) (x : Inspection) (s : State) :
    (applyInspection k r x s).msi = s.msi := by
  unfold applyInspection; dsimp only; split <;> simp
@[simp] theorem mlc_applyInspection (k : Index) (r : WriteRequest) (x : Inspection) (s : State) :
    (applyInspection k r x s).mlc = s.mlc := by
  unfold applyInspection; dsimp only; split <;> simp
@[simp] theorem freeCount_applyInspection (k : Index) (r : WriteRequest) (x : Inspection) (s : State) :
    (applyInspection k r x s).freeCount = s.freeCount := by
  unfold applyInspection; dsimp only; split <;> simp
@[simp] theorem pending_applyInspection (k : Index) (r : WriteRequest) (x : Inspection) (s : State) :
    (applyInspection k r x s).pending = s.pending := by
  unfold applyInspection; dsimp only; split <;> simp
@[simp] theorem draining_applyInspection (k : Index) (r : WriteRequest) (x : Inspection) (s : State) :
    (applyInspection k r x s).transit.draining = s.transit.draining := by
  unfold applyInspection; dsimp only; split <;> simp
@[simp] theorem divider_applyInspection (k : Index) (r : WriteRequest) (x : Inspection) (s : State) :
    (applyInspection k r x s).timer.divider = s.timer.divider := by
  unfold applyInspection; dsimp only; split <;> simp

/-- An inspection leaves alone what no write touches. -/
theorem outsideInspection_applyInspection (k : Index) (r : WriteRequest) (x : Inspection) (s : State) :
    outsideInspection s (applyInspection k r x (s.setOffered none)) := by
  refine ⟨?_, ?_, ?_, ?_, ?_, ?_, ?_⟩ <;> simp

/-- What an inspection hands the Event Latch block (R67, R68), a failure of the entry included. -/
theorem handed_applyInspection {k : Index} {r : WriteRequest} {x : Inspection} {s : State}
    (hd : x.next.defn = (s.entry k).defn) :
    handed k (x.faults ||| x.notices ||| kindIf x.tornAtFailure .torn) x.rise x.fall x.capture s
      (applyInspection k r x (s.setOffered none)) := by
  let t := placeSlot (inspectedSlot k x.next.defn r x) (applyTiming k x (s.setOffered none))
  have ht : (t.entry k).defn = (s.entry k).defn := (defn_applyTiming k x (s.setOffered none)).trans hd
  have he : t.events = s.events := by simp [t]
  cases hf : x.fails
  · rw [applyInspection_of_not_fails hf]
    exact handed_congr he.symm (by rw [ht]) rfl (handed_latchEvents _ _ _ _ _ t)
  · rw [applyInspection_of_fails hf]
    exact handed_congr he.symm (by rw [ht]) (by simp [t]) (handed_latchEvents _ _ _ _ _ t)

/-! ### The inspection, by its classification -/

/-- A write to an entry that is not FAILED and that the pairing stage does not hold goes to the checks. -/
theorem inspect_eq_judge {e : Entry} {r : WriteRequest} (hf : e.state ≠ .failed)
    (hp : ∀ p, pairingStage e r ≠ .held p) : inspect e r = judge e r (pairingStage e r) := by
  unfold inspect
  rw [if_neg (by simpa using hf)]
  split
  · rename_i p h; exact absurd h (hp p)
  · rfl

/-- What an inspection is, by cases: the FAILED drop, a held half, or the judgement of R61. -/
theorem inspect_cases (e : Entry) (r : WriteRequest) :
    (e.state = .failed ∧ inspect e r = droppedFailed e r) ∨
    (e.state ≠ .failed ∧ ∃ p, pairingStage e r = .held p ∧ inspect e r = heldWrite e p) ∨
    (e.state ≠ .failed ∧ (∀ p, pairingStage e r ≠ .held p) ∧ inspect e r = judge e r (pairingStage e r)) := by
  by_cases hf : e.state = .failed
  · exact .inl ⟨hf, by simp [inspect, hf]⟩
  · cases hp : pairingStage e r with
    | held p => exact .inr (.inl ⟨hf, p, rfl, by simp [inspect, hf, hp]⟩)
    | notReached =>
      exact .inr (.inr ⟨hf, by simp, by simpa [hp] using inspect_eq_judge (r := r) hf (by simp [hp])⟩)
    | complete lo hi =>
      exact .inr (.inr ⟨hf, by simp, by simpa [hp] using inspect_eq_judge (r := r) hf (by simp [hp])⟩)
    | tornSame =>
      exact .inr (.inr ⟨hf, by simp, by simpa [hp] using inspect_eq_judge (r := r) hf (by simp [hp])⟩)
    | tornOther lo hi =>
      exact .inr (.inr ⟨hf, by simp, by simpa [hp] using inspect_eq_judge (r := r) hf (by simp [hp])⟩)

/-- What the judgement is, by cases. -/
theorem judge_cases (e : Entry) (r : WriteRequest) (p : Pairing) :
    let f := findings e (checkedValue e r p)
    let faults := writeFaults e r p f
    (faults ≠ 0 ∧ judge e r p = faultedWrite e r p f faults) ∨
    (faults = 0 ∧ f.band = .suspect ∧ judge e r p = suspectWrite e r p f) ∨
    (faults = 0 ∧ f.band ≠ .suspect ∧
      judge e r p = cleanWrite e r p f ((checkedValue e r p).getD (.word r.data))) := by
  intro f faults
  by_cases h : faults = 0
  · by_cases hb : f.band = .suspect
    · exact .inr (.inl ⟨h, hb, by simp only [judge]; rw [if_neg (by simpa using h), if_pos (by simpa using hb)]⟩)
    · exact .inr (.inr ⟨h, hb, by simp only [judge]; rw [if_neg (by simpa using h), if_neg (by simpa using hb)]⟩)
  · exact .inl ⟨h, by simp only [judge]; rw [if_pos (by simpa using h)]⟩

/-- The pairing stage is reached by whole writes of allowed writers to REAL64 entries alone (R54, R55, R57). -/
theorem pairingStage_eq_notReached {e : Entry} {r : WriteRequest} : pairingStage e r = .notReached ↔
    ¬ (e.defn.format = .real64 ∧ r.isPartial = false ∧ e.defn.isForeign r = false) := by
  unfold pairingStage
  by_cases h : e.defn.format = .real64 ∧ r.isPartial = false ∧ e.defn.isForeign r = false
  · rw [if_pos (by simp [h])]
    simp only [h, and_self, not_true_eq_false, iff_false]
    repeat' split
    all_goals simp
  · rw [if_neg (by simpa [and_assoc] using h)]
    simp only [h, not_false_eq_true]

/-- A checked value is the whole word of an entry that is not REAL64, or a completed pair of one that is (R56). -/
theorem checkedValue_eq_some {e : Entry} {r : WriteRequest} {v : Value}
    (h : checkedValue e r (pairingStage e r) = some v) :
    (pairingStage e r = .notReached ∧ v = .word r.data ∧ e.defn.format ≠ .real64 ∧ r.isPartial = false) ∨
      ∃ lo hi, pairingStage e r = .complete lo hi ∧ v = .pair lo hi ∧ e.defn.format = .real64 := by
  cases hq : pairingStage e r with
  | notReached => left; rw [hq] at h; simp [checkedValue] at h; tauto
  | held p => rw [hq] at h; simp [checkedValue] at h
  | complete lo hi =>
    right; rw [hq] at h; simp [checkedValue] at h
    refine ⟨lo, hi, rfl, h.symm, ?_⟩
    by_contra hc
    rw [pairingStage_eq_notReached.mpr (by tauto)] at hq; cases hq
  | tornSame => rw [hq] at h; simp [checkedValue] at h
  | tornOther lo hi => rw [hq] at h; simp [checkedValue] at h

/-- An inspection classified as faulted, suspect or clean came through the judgement (R61). -/
theorem inspect_of_classification {e : Entry} {r : WriteRequest} {c : Classification}
    (h : (inspect e r).classification = c) (hd : c ≠ .droppedFailed) (hh : c ≠ .held) :
    e.state ≠ .failed ∧ inspect e r = judge e r (pairingStage e r) := by
  rcases inspect_cases e r with ⟨_, h2⟩ | ⟨_, p, _, h2⟩ | ⟨h1, _, h2⟩
  · rw [h2] at h; exact absurd h.symm hd
  · rw [h2] at h; exact absurd h.symm hh
  · exact ⟨h1, h2⟩

/-- A write at a band outcome of suspect has moved the dwell counter by one (R84). -/
theorem dwell_of_suspect {e : Entry} {c : Option Value} (h : (findings e c).band = .suspect) :
    (findings e c).dwell = e.dwellCounter + 1 := by
  cases c with
  | none => simp [findings, noFindings] at h
  | some v =>
    unfold findings at h ⊢
    cases hf : e.defn.format <;> simp only [hf] at h ⊢ <;>
      simp only [numericFindings, sequenceFindings, flagsFindings, noFindings, bandCheck] at h ⊢ <;> try cases h
    all_goals
      split at h
      · cases h
      · split at h
        · split at h
          · rename_i h1 h2 h3; simp [h1, h2, h3]
          · cases h
        · cases h

/-! ### The words that HOLD substitutes, and a request held offered -/

/-- The substituted word is the one the inspection puts in the slot (R35, R63). -/
theorem goodWordAt_eq (d : Definition) (a : Addr) (g : Value) :
    goodWordAt d a g = if d.format = .real64 then g.halfWord (d.halfOf a) else g.lowWord := by
  cases g <;> by_cases hf : d.format = .real64 <;> by_cases ha : a = d.base <;>
    simp [goodWordAt, Definition.halfOf, Value.halfWord, Value.lowWord, Value.highWord, hf, ha]
/-- The substituted pair is the one the inspection puts in the slot (R35, R63). -/
theorem goodPair_eq (g : Value) : goodPair g = .two g.lowWord g.highWord := by cases g <;> rfl

/-- An acceptance takes the request off the processor side and moves no other pin (R25). -/
@[simp] theorem pins_acceptOffer (o : Offer) (s : State) :
    (acceptOffer o s).pins = { s.pins with offered := none } := by
  cases o with
  | write r =>
    unfold acceptOffer acceptWrite
    dsimp only
    split <;> (try split) <;> first | rfl | simp [State.setOffered]
  | read r =>
    unfold acceptOffer acceptRead
    dsimp only
    split <;> (try split) <;> first | rfl | simp [State.setOffered]

end Sys2Proof.Machine
end

