-- ==== Sys2Proof/Laws/Frames.lean ====
section
/-! SUPPORT. What the link's operations do, said once: frames taken whole and from the register, the checks of R181, and
the replies. -/
namespace Sys2Proof.Machine

/-! ### Replies -/

@[simp] theorem pins_reply (code : Byte) (d : Bytes8) (s : State) : (reply code d s).pins = s.pins := rfl
@[simp] theorem transit_reply (code : Byte) (d : Bytes8) (s : State) : (reply code d s).transit = s.transit := rfl
@[simp] theorem msi_reply (code : Byte) (d : Bytes8) (s : State) : (reply code d s).msi = s.msi := rfl
@[simp] theorem entries_reply (code : Byte) (d : Bytes8) (s : State) : (reply code d s).entries = s.entries := rfl
@[simp] theorem timer_reply (code : Byte) (d : Bytes8) (s : State) : (reply code d s).timer = s.timer := rfl
@[simp] theorem esc_reply (code : Byte) (d : Bytes8) (s : State) : (reply code d s).esc = s.esc := rfl
@[simp] theorem events_reply (code : Byte) (d : Bytes8) (s : State) : (reply code d s).events = s.events := rfl
@[simp] theorem freeCount_reply (code : Byte) (d : Bytes8) (s : State) :
    (reply code d s).freeCount = s.freeCount := rfl
@[simp] theorem pending_reply (code : Byte) (d : Bytes8) (s : State) : (reply code d s).pending = s.pending := rfl
@[simp] theorem pins_refuse (code : Byte) (st : LinkStatus) (s : State) : (refuse code st s).pins = s.pins := rfl
@[simp] theorem transit_refuse (code : Byte) (st : LinkStatus) (s : State) :
    (refuse code st s).transit = s.transit := rfl
@[simp] theorem msi_refuse (code : Byte) (st : LinkStatus) (s : State) : (refuse code st s).msi = s.msi := rfl
@[simp] theorem entries_refuse (code : Byte) (st : LinkStatus) (s : State) :
    (refuse code st s).entries = s.entries := rfl
@[simp] theorem timer_refuse (code : Byte) (st : LinkStatus) (s : State) : (refuse code st s).timer = s.timer := rfl
@[simp] theorem esc_refuse (code : Byte) (st : LinkStatus) (s : State) : (refuse code st s).esc = s.esc := rfl
@[simp] theorem events_refuse (code : Byte) (st : LinkStatus) (s : State) :
    (refuse code st s).events = s.events := rfl
@[simp] theorem freeCount_refuse (code : Byte) (st : LinkStatus) (s : State) :
    (refuse code st s).freeCount = s.freeCount := rfl
@[simp] theorem pending_refuse (code : Byte) (st : LinkStatus) (s : State) :
    (refuse code st s).pending = s.pending := rfl
theorem mlc_reply (code : Byte) (d : Bytes8) (s : State) :
    (reply code d s).mlc = { s.mlc with reply := ⟨.done, code, d⟩ } := rfl
theorem mlc_refuse (code : Byte) (st : LinkStatus) (s : State) :
    (refuse code st s).mlc = { s.mlc with reply := ⟨st, code, 0⟩ } := rfl

/-! ### A frame received whole -/

@[simp] theorem transit_endFrame  (s : State) : (endFrame s).transit = s.transit := rfl
@[simp] theorem msi_endFrame  (s : State) : (endFrame s).msi = s.msi := rfl
@[simp] theorem entries_endFrame  (s : State) : (endFrame s).entries = s.entries := rfl
@[simp] theorem timer_endFrame  (s : State) : (endFrame s).timer = s.timer := rfl
@[simp] theorem esc_endFrame  (s : State) : (endFrame s).esc = s.esc := rfl
@[simp] theorem events_endFrame  (s : State) : (endFrame s).events = s.events := rfl
@[simp] theorem freeCount_endFrame  (s : State) : (endFrame s).freeCount = s.freeCount := rfl
@[simp] theorem pending_endFrame  (s : State) : (endFrame s).pending = s.pending := rfl
@[simp] theorem transit_received (code sel : Byte) (arg : Bytes8) (s : State) :
    (received code sel arg s).transit = s.transit := rfl
@[simp] theorem msi_received (code sel : Byte) (arg : Bytes8) (s : State) :
    (received code sel arg s).msi = s.msi := rfl
@[simp] theorem entries_received (code sel : Byte) (arg : Bytes8) (s : State) :
    (received code sel arg s).entries = s.entries := rfl
@[simp] theorem timer_received (code sel : Byte) (arg : Bytes8) (s : State) :
    (received code sel arg s).timer = s.timer := rfl
@[simp] theorem esc_received (code sel : Byte) (arg : Bytes8) (s : State) :
    (received code sel arg s).esc = s.esc := rfl
@[simp] theorem events_received (code sel : Byte) (arg : Bytes8) (s : State) :
    (received code sel arg s).events = s.events := rfl
@[simp] theorem freeCount_received (code sel : Byte) (arg : Bytes8) (s : State) :
    (received code sel arg s).freeCount = s.freeCount := rfl
@[simp] theorem pending_received (code sel : Byte) (arg : Bytes8) (s : State) :
    (received code sel arg s).pending = s.pending := rfl
@[simp] theorem draft_received (code sel : Byte) (arg : Bytes8) (s : State) :
    (received code sel arg s).mlc.draft = s.mlc.draft := rfl
@[simp] theorem buffer_received (code sel : Byte) (arg : Bytes8) (s : State) :
    (received code sel arg s).mlc.buffer = s.mlc.buffer := rfl
@[simp] theorem startCause_received (code sel : Byte) (arg : Bytes8) (s : State) :
    (received code sel arg s).mlc.startCause = s.mlc.startCause := rfl
@[simp] theorem armingWindow_received (code sel : Byte) (arg : Bytes8) (s : State) :
    (received code sel arg s).mlc.armingWindow = s.mlc.armingWindow := rfl
@[simp] theorem poison_received (code sel : Byte) (arg : Bytes8) (s : State) :
    (received code sel arg s).mlc.poison = s.mlc.poison := rfl
@[simp] theorem alertEnable_received (code sel : Byte) (arg : Bytes8) (s : State) :
    (received code sel arg s).mlc.alertEnable = s.mlc.alertEnable := rfl
@[simp] theorem reply_received (code sel : Byte) (arg : Bytes8) (s : State) :
    (received code sel arg s).mlc.reply = s.mlc.reply := rfl
@[simp] theorem entry_received (code sel : Byte) (arg : Bytes8) (s : State) (k : Index) :
    (received code sel arg s).entry k = s.entry k := rfl
@[simp] theorem window_received (code sel : Byte) (arg : Bytes8) (s : State) (k : Index) :
    (received code sel arg s).window k = s.window k := rfl
@[simp] theorem latch_received (code sel : Byte) (arg : Bytes8) (s : State) (k : Index) :
    (received code sel arg s).latch k = s.latch k := rfl

/-- After a whole frame only CS_N and the link's registers have changed. -/
theorem pins_received (code sel : Byte) (arg : Bytes8) (s : State) :
    (received code sel arg s).pins = { s.pins with csLow := false } := rfl
theorem pins_received_of_ready {s : State} (h : s.linkReady) (code sel : Byte) (arg : Bytes8) :
    (received code sel arg s).pins = s.pins := by
  rw [pins_received]
  have hc := h.1
  cases hp : s.pins with
  | mk porst prst csLow offered => rw [hp] at hc; simp only at hc; rw [hc]
theorem sameButLink_received {s : State} (h : s.linkReady) (code sel : Byte) (arg : Bytes8) :
    sameButLink s (received code sel arg s) :=
  ⟨pins_received_of_ready h code sel arg, rfl, rfl, rfl, rfl, rfl, rfl, rfl, rfl, rfl, rfl, rfl, rfl, rfl, rfl⟩

theorem sameButLink_reply {s t : State} (h : sameButLink s t) (code : Byte) (d : Bytes8) :
    sameButLink s (reply code d t) := h
theorem sameButLink_refuse {s t : State} (h : sameButLink s t) (code : Byte) (st : LinkStatus) :
    sameButLink s (refuse code st t) := h

/-- A frame that a row carries whole, with CS_N high, is executed when it belongs to the row. -/
theorem takeFrame_of_ready {s : State} (h : s.linkReady) {fits : Byte → Byte → Bool}
    {run : Byte → Byte → Bytes8 → State → State} {code sel : Byte} {arg : Bytes8} (hf : fits code sel = true) :
    takeFrame fits run code sel arg s = run code sel arg (received code sel arg s) := by
  simp [takeFrame, h.1, h.2, hf, received]

/-- A row of one command code executes the frame that it carries. -/
theorem takeCommand_of_ready {s : State} (h : s.linkReady) (code sel : Byte) (arg : Bytes8)
    (run : Byte → Bytes8 → State → State) :
    takeCommand code run sel arg s = run sel arg (received code sel arg s) :=
  takeFrame_of_ready h (by simp)

/-- A SET_DEVICE row executes the frame that it carries when the selector is of its row. -/
theorem takeSetDevice_of_ready {α : Type} {s : State} (h : s.linkReady) {k sel : Byte}
    (hs : setDeviceSelector k sel = true) (value : Bytes8 → Option α) (put : α → State → State) (arg : Bytes8) :
    takeSetDevice k value put sel arg s = setSetting k value put sel arg (received 0x03#8 sel arg s) :=
  takeFrame_of_ready h (by simp [hs])

/-- What CS_N rising on a command frame does, whatever the state: nothing; the end of an ignored frame; a BAD_FRAME
reply; or the command, at a state that differs from `s` in CS_N and the link's registers alone. -/
theorem takeFrame_cases (fits : Byte → Byte → Bool) (run : Byte → Byte → Bytes8 → State → State) (code sel : Byte)
    (arg : Bytes8) (s : State) :
    takeFrame fits run code sel arg s = s ∨ takeFrame fits run code sel arg s = endFrame s ∨
    takeFrame fits run code sel arg s = endBadFrame s ∨
    ∃ c v a m, fits c v = true ∧
      (m.reply = s.mlc.reply ∧ m.draft = s.mlc.draft ∧ m.buffer = s.mlc.buffer ∧ m.startCause = s.mlc.startCause ∧
        m.armingWindow = s.mlc.armingWindow ∧ m.poison = s.mlc.poison ∧ m.alertEnable = s.mlc.alertEnable ∧
        m.frameOpen = false) ∧
      (s.pins.csLow = false → s.pins.porst = false) ∧
      (s.pins.csLow = true → s.mlc.frameOpen = true) ∧
      takeFrame fits run code sel arg s =
        run c v a { s with pins := { s.pins with csLow := false }, mlc := m } := by
  unfold takeFrame
  by_cases hc : s.pins.csLow = true
  · rw [if_pos hc]
    by_cases ho : s.mlc.frameOpen = true
    · rw [if_neg (by simp [ho])]
      split
      · exact .inr (.inr (.inl rfl))
      · split
        · rename_i hf
          exact .inr (.inr (.inr ⟨_, _, _, { s.mlc with frameOpen := false }, hf, by simp, by simp [hc], fun _ => ho, rfl⟩))
        · exact .inl rfl
    · rw [if_pos (by simp [ho])]
      exact .inr (.inl rfl)
  · rw [if_neg hc]
    split
    · exact .inl rfl
    · rename_i hp
      split
      · rename_i hf
        exact .inr (.inr (.inr ⟨code, sel, arg, (received code sel arg s).mlc, hf, ⟨rfl, rfl, rfl, rfl, rfl, rfl, rfl, rfl⟩,
          fun _ => by simpa using hp, fun h => absurd h hc, rfl⟩))
      · exact .inl rfl

/-! ### The checks of R181 -/

/-- A command that its device state admits and whose operands are in range runs. -/
theorem checked_of_ok {code sel : Byte} {inRange : Bool} {run : State → State} {s : State}
    (ha : admits code sel s.esc.device = true) (hr : inRange = true) : checked code sel inRange run s = run s := by
  simp [checked, ha, hr]
/-- A command that its device state does not admit is BAD_STATE, whatever its operands (R181). -/
theorem checked_of_state {code sel : Byte} {inRange : Bool} {run : State → State} {s : State}
    (ha : admits code sel s.esc.device = false) : checked code sel inRange run s = refuse code .badState s := by
  simp [checked, ha]
/-- A command that is admitted with an operand out of range is BAD_FIELD (R181). -/
theorem checked_of_range {code sel : Byte} {inRange : Bool} {run : State → State} {s : State}
    (ha : admits code sel s.esc.device = true) (hr : inRange = false) :
    checked code sel inRange run s = refuse code .badField s := by simp [checked, ha, hr]

theorem indexOf_of_lt {sel : Byte} {k : Index} (h : sel.toNat = k.val) : indexOf sel = some k := by
  unfold indexOf
  rw [dif_pos (by rw [h]; exact k.isLt)]
  exact congrArg some (Fin.ext h)
theorem indexOf_of_ge {sel : Byte} (h : 63 < sel.toNat) : indexOf sel = none := by
  unfold indexOf; rw [dif_neg (by omega)]

/-- An index command that is admitted, at an index below 64, runs at that entry. -/
theorem checkedIndex_of_ok {code sel : Byte} {run : Index → State → State} {s : State} {k : Index}
    (ha : admits code sel s.esc.device = true) (hk : sel.toNat = k.val) :
    checkedIndex code sel run s = run k s := by simp [checkedIndex, ha, indexOf_of_lt hk]
theorem checkedIndex_of_state {code sel : Byte} {run : Index → State → State} {s : State}
    (ha : admits code sel s.esc.device = false) : checkedIndex code sel run s = refuse code .badState s := by
  simp [checkedIndex, ha]
theorem checkedIndex_of_range {code sel : Byte} {run : Index → State → State} {s : State}
    (ha : admits code sel s.esc.device = true) (hk : 63 < sel.toNat) :
    checkedIndex code sel run s = refuse code .badField s := by simp [checkedIndex, ha, indexOf_of_ge hk]

/-- What the checks of R181 leave: a refusal that changes the reply alone, or the command. -/
theorem checked_cases (code sel : Byte) (inRange : Bool) (run : State → State) (s : State) :
    (∃ st, checked code sel inRange run s = refuse code st s) ∨
      (admits code sel s.esc.device = true ∧ checked code sel inRange run s = run s) := by
  unfold checked
  split
  · exact .inl ⟨_, rfl⟩
  · rename_i ha
    split
    · exact .inl ⟨_, rfl⟩
    · exact .inr ⟨by simpa using ha, rfl⟩
theorem checkedIndex_cases (code sel : Byte) (run : Index → State → State) (s : State) :
    (∃ st, checkedIndex code sel run s = refuse code st s) ∨
      (admits code sel s.esc.device = true ∧ ∃ k, checkedIndex code sel run s = run k s) := by
  unfold checkedIndex
  split
  · exact .inl ⟨_, rfl⟩
  · rename_i ha
    split
    · exact .inl ⟨_, rfl⟩
    · exact .inr ⟨by simpa using ha, _, rfl⟩

/-! ### Bits of a frame -/

@[simp] theorem bitsOf_length {n : Nat} (w : BitVec n) : (bitsOf w).length = n := by simp [bitsOf]
theorem bitsOf_getElem {n : Nat} (w : BitVec n) (i : Nat) (h : i < (bitsOf w).length) : (bitsOf w)[i] = w.getMsbD i := by
  simp [bitsOf]

/-- Bytes put into frame order and back. -/
theorem swapBytes_swapBytes (x : Bytes8) : swapBytes (swapBytes x) = x := by
  unfold swapBytes
  ext i hi
  simp only [BitVec.getElem_append, BitVec.getElem_extractLsb', BitVec.getLsbD_append, BitVec.getLsbD_extractLsb']
  interval_cases i <;> simp

end Sys2Proof.Machine
end

