-- ==== Sys2Proof/Laws/Data.lean ====
section
/-! SUPPORT. Reading the data bytes of a reply back: numbers placed with `dataAt` and joined bit by bit. -/
namespace Sys2Proof.Machine

/-- A bit of a number placed from byte `k` up. -/
theorem getLsbD_dataAt (k n i : Nat) :
    (dataAt k n).getLsbD i = (decide (i < 64) && decide (8 * k ≤ i) && n.testBit (i - 8 * k)) := by
  simp only [dataAt, BitVec.getLsbD_shiftLeft, BitVec.getLsbD_ofNat]
  by_cases h : i < 64 <;> by_cases h2 : i < 8 * k
  · simp [h2]
  · have : i - 8 * k < 64 := by omega
    simp [h, h2, this, Nat.le_of_not_lt h2]
  · simp [h]
  · simp [h]

/-- A number of less than a byte, placed at byte `k`, read at byte `j`. -/
theorem dataByte_dataAt {k j n : Nat} (hj : j < 8) (hn : n < 256) :
    dataByte (dataAt k n) j = if j = k then BitVec.ofNat 8 n else 0 := by
  have hbig : ∀ i, 8 ≤ i → n.testBit i = false := fun i hi =>
    Nat.testBit_lt_two_pow (lt_of_lt_of_le (b := 2 ^ 8) hn (Nat.pow_le_pow_right (by decide) hi))
  apply BitVec.eq_of_getLsbD_eq
  intro i hi
  rw [dataByte, BitVec.getLsbD_extractLsb', getLsbD_dataAt]
  by_cases hk : j = k
  · subst hk
    rw [if_pos rfl, BitVec.getLsbD_ofNat]
    simp [hi, show 8 * j + i < 64 by omega]
  · rw [if_neg hk]
    by_cases h : 8 * k ≤ 8 * j + i
    · simp [hbig (8 * j + i - 8 * k) (by omega)]
    · simp [h]

theorem dataByte_or (a b : Bytes8) (k : Nat) : dataByte (a ||| b) k = dataByte a k ||| dataByte b k := by
  simp [dataByte, BitVec.extractLsb'_or]
@[simp] theorem dataByte_zero (k : Nat) : dataByte 0 k = 0 := by simp [dataByte]

/-- A number of `w` bits, placed at byte `k`, read back in its place. -/
theorem extract_dataAt {k w n : Nat} (h : 8 * k + w ≤ 64) :
    (dataAt k n).extractLsb' (8 * k) w = BitVec.ofNat w n := by
  apply BitVec.eq_of_getLsbD_eq
  intro i hi
  rw [BitVec.getLsbD_extractLsb', getLsbD_dataAt, BitVec.getLsbD_ofNat]
  simp [hi, show 8 * k + i < 64 by omega]

/-- A number below 2^v placed at byte `k` leaves the bits outside its place zero. -/
theorem extract_dataAt_of_disjoint {k v lo w n : Nat} (hn : n < 2 ^ v) (h : 8 * k + v ≤ lo ∨ lo + w ≤ 8 * k) :
    (dataAt k n).extractLsb' lo w = 0 := by
  apply BitVec.eq_of_getLsbD_eq
  intro i hi
  rw [BitVec.getLsbD_extractLsb', getLsbD_dataAt]
  rcases h with h | h
  · have : n.testBit (lo + i - 8 * k) = false :=
      Nat.testBit_lt_two_pow (lt_of_lt_of_le hn (Nat.pow_le_pow_right (by omega) (by omega)))
    simp [this]
  · simp [show ¬ 8 * k ≤ lo + i by omega]

end Sys2Proof.Machine
end

