-- ==== Sys2Proof/Laws/Table.lean ====
section
/-! SUPPORT. What the resets and the table's commands do to each record, said once, so that no proof unfolds a change of all
64 records at once. -/
namespace Sys2Proof.Machine

/-! ### START and STOP -/

@[simp] theorem pins_startSupervision (s : State) : (startSupervision s).pins = s.pins := by simp [startSupervision]
@[simp] theorem transit_startSupervision (s : State) :
    (startSupervision s).transit = s.transit := by simp [startSupervision]
@[simp] theorem msi_startSupervision (s : State) : (startSupervision s).msi = s.msi := by simp [startSupervision]
@[simp] theorem events_startSupervision (s : State) :
    (startSupervision s).events = s.events := by simp [startSupervision]
@[simp] theorem mlc_startSupervision (s : State) : (startSupervision s).mlc = s.mlc := by simp [startSupervision]
@[simp] theorem freeCount_startSupervision (s : State) :
    (startSupervision s).freeCount = s.freeCount := by simp [startSupervision]
@[simp] theorem pending_startSupervision (s : State) :
    (startSupervision s).pending = s.pending := by simp [startSupervision]
@[simp] theorem pins_stopSupervision (s : State) : (stopSupervision s).pins = s.pins := by simp [stopSupervision]
@[simp] theorem transit_stopSupervision (s : State) :
    (stopSupervision s).transit = s.transit := by simp [stopSupervision]
@[simp] theorem msi_stopSupervision (s : State) : (stopSupervision s).msi = s.msi := by simp [stopSupervision]
@[simp] theorem events_stopSupervision (s : State) :
    (stopSupervision s).events = s.events := by simp [stopSupervision]
@[simp] theorem mlc_stopSupervision (s : State) : (stopSupervision s).mlc = s.mlc := by simp [stopSupervision]
@[simp] theorem freeCount_stopSupervision (s : State) :
    (stopSupervision s).freeCount = s.freeCount := by simp [stopSupervision]
@[simp] theorem pending_stopSupervision (s : State) :
    (stopSupervision s).pending = s.pending := by simp [stopSupervision]
@[simp] theorem divider_startSupervision (s : State) : (startSupervision s).timer.divider = s.timer.divider := by
  simp [startSupervision]
@[simp] theorem divider_stopSupervision (s : State) : (stopSupervision s).timer.divider = s.timer.divider := by
  simp [stopSupervision]
@[simp] theorem esc_startSupervision (s : State) : (startSupervision s).esc = { s.esc with device := .supervise } := by
  simp [startSupervision]
@[simp] theorem esc_stopSupervision (s : State) : (stopSupervision s).esc = { s.esc with device := .configure } := by
  simp [stopSupervision]
/-- START arms a DEFINED entry and leaves the others (R17). -/
@[simp] theorem entry_startSupervision (s : State) (k : Index) :
    (startSupervision s).entry k = (s.entry k).started := by simp [startSupervision]
@[simp] theorem window_startSupervision (s : State) (k : Index) :
    (startSupervision s).window k = windowAtStart (s.entry k) s.mlc.armingWindow (s.window k) := by
  simp [startSupervision]
@[simp] theorem latch_startSupervision (s : State) (k : Index) : (startSupervision s).latch k = s.latch k :=
  latch_congr (events_startSupervision s) k
/-- STOP moves ARMED, LIVE and STALE entries to DEFINED and leaves the others (R18). -/
@[simp] theorem entry_stopSupervision (s : State) (k : Index) :
    (stopSupervision s).entry k = (s.entry k).stopped := by simp [stopSupervision]
@[simp] theorem window_stopSupervision (s : State) (k : Index) :
    (stopSupervision s).window k = windowAtStop (s.entry k) (s.window k) := by simp [stopSupervision]
@[simp] theorem latch_stopSupervision (s : State) (k : Index) : (stopSupervision s).latch k = s.latch k :=
  latch_congr (events_stopSupervision s) k

/-! ### The processor-side reset -/

@[simp] theorem pins_rearmEntries (s : State) :
    (rearmEntries s).pins = s.pins := by
  unfold rearmEntries; cases s.esc.device == .supervise <;> simp
@[simp] theorem transit_rearmEntries (s : State) :
    (rearmEntries s).transit = s.transit := by
  unfold rearmEntries; cases s.esc.device == .supervise <;> simp
@[simp] theorem msi_rearmEntries (s : State) :
    (rearmEntries s).msi = s.msi := by
  unfold rearmEntries; cases s.esc.device == .supervise <;> simp
@[simp] theorem esc_rearmEntries (s : State) :
    (rearmEntries s).esc = s.esc := by
  unfold rearmEntries; cases s.esc.device == .supervise <;> simp
@[simp] theorem events_rearmEntries (s : State) :
    (rearmEntries s).events = s.events := by
  unfold rearmEntries; cases s.esc.device == .supervise <;> simp
@[simp] theorem mlc_rearmEntries (s : State) :
    (rearmEntries s).mlc = s.mlc := by
  unfold rearmEntries; cases s.esc.device == .supervise <;> simp
@[simp] theorem freeCount_rearmEntries (s : State) :
    (rearmEntries s).freeCount = s.freeCount := by
  unfold rearmEntries; cases s.esc.device == .supervise <;> simp
@[simp] theorem pending_rearmEntries (s : State) :
    (rearmEntries s).pending = s.pending := by
  unfold rearmEntries; cases s.esc.device == .supervise <;> simp
@[simp] theorem divider_rearmEntries (s : State) : (rearmEntries s).timer.divider = s.timer.divider := by
  unfold rearmEntries; cases s.esc.device == .supervise <;> simp
/-- The processor-side reset at one entry, in SUPERVISE alone (R24). -/
theorem entry_rearmEntries (s : State) (k : Index) : (rearmEntries s).entry k =
    if s.esc.device = .supervise then (s.entry k).afterProcessorReset else s.entry k := by
  unfold rearmEntries
  by_cases h : s.esc.device = .supervise
  · simp [h]
  · rw [if_neg h, show (s.esc.device == .supervise) = false by simpa using h, onlyIf_false]
/-- The processor-side reset at one window record, in SUPERVISE alone (R24, R136). -/
theorem window_rearmEntries (s : State) (k : Index) : (rearmEntries s).window k =
    if s.esc.device = .supervise then windowAfterProcessorReset (s.entry k) s.mlc.armingWindow (s.window k)
    else s.window k := by
  unfold rearmEntries
  by_cases h : s.esc.device = .supervise
  · simp [h]
  · rw [if_neg h, show (s.esc.device == .supervise) = false by simpa using h, onlyIf_false]
theorem latch_rearmEntries (s : State) (k : Index) : (rearmEntries s).latch k = s.latch k :=
  latch_congr (events_rearmEntries s) k

@[simp] theorem pins_drain (s : State) : (drain s).pins = s.pins := rfl
@[simp] theorem msi_drain (s : State) : (drain s).msi = s.msi := rfl
@[simp] theorem entries_drain (s : State) : (drain s).entries = s.entries := rfl
@[simp] theorem timer_drain (s : State) : (drain s).timer = s.timer := rfl
@[simp] theorem esc_drain (s : State) : (drain s).esc = s.esc := rfl
@[simp] theorem events_drain (s : State) : (drain s).events = s.events := rfl
@[simp] theorem mlc_drain (s : State) : (drain s).mlc = s.mlc := rfl
@[simp] theorem freeCount_drain (s : State) : (drain s).freeCount = s.freeCount := rfl
@[simp] theorem pending_drain (s : State) : (drain s).pending = s.pending := rfl
@[simp] theorem entry_drain (s : State) (k : Index) : (drain s).entry k = s.entry k := rfl
@[simp] theorem window_drain (s : State) (k : Index) : (drain s).window k = s.window k := rfl
@[simp] theorem latch_drain (s : State) (k : Index) : (drain s).latch k = s.latch k := rfl
theorem slots_drain (s : State) : (drain s).transit.slots = drainSlots s.transit.slots := rfl
theorem draining_drain (s : State) : (drain s).transit.draining = !(drainSlots s.transit.slots).isEmpty := rfl

/-! ### Power-on and soft reset -/

@[simp] theorem entry_powerOnValues (s : State) (k : Index) : (powerOnValues s).entry k = emptyEntry := by
  simp [powerOnValues, State.entry, State.reset]
@[simp] theorem window_powerOnValues (s : State) (k : Index) : (powerOnValues s).window k = stoppedWindow := by
  simp [powerOnValues, State.window, State.reset]
@[simp] theorem latch_powerOnValues (s : State) (k : Index) : (powerOnValues s).latch k = clearedLatch := by
  simp [powerOnValues, State.latch, State.reset, resetEvents]
@[simp] theorem entry_softResetAll (s : State) (k : Index) : (softResetAll s).entry k = emptyEntry := by
  simp [softResetAll, State.entry]
@[simp] theorem window_softResetAll (s : State) (k : Index) : (softResetAll s).window k = stoppedWindow := by
  simp [softResetAll, State.window]
@[simp] theorem latch_softResetAll (s : State) (k : Index) : (softResetAll s).latch k = clearedLatch := by
  simp [softResetAll, State.latch, resetEvents]
/-- No member is failed after a power-on or soft reset (R148). -/
theorem failed_resetGroup (k : Index) : resetGroup.failed[k] = false := by simp [resetGroup]

/-! ### INSTALL, RETIRE and REARM -/

theorem entry_installDraft (k : Index) (s : State) (j : Index) : (installDraft k s).entry j =
    if k = j then freshEntry s.mlc.draft (if s.esc.device = .supervise then .armed else .defined) else s.entry j := by
  unfold installDraft
  cases h : s.esc.device <;> simp [entry_setEntry]
theorem window_installDraft (k : Index) (s : State) (j : Index) : (installDraft k s).window j =
    if k = j ∧ s.esc.device = .supervise then armingWindowFor s.mlc.draft s.mlc.armingWindow else s.window j := by
  unfold installDraft
  cases h : s.esc.device <;> simp [window_setWindow]
theorem entry_retireEntry (k : Index) (s : State) (j : Index) :
    (retireEntry k s).entry j = if k = j then emptyEntry else s.entry j := entry_setEntry s k j _
theorem window_retireEntry (k : Index) (s : State) (j : Index) :
    (retireEntry k s).window j = if k = j then stoppedWindow else s.window j := window_setWindow s k j _
theorem latch_retireEntry (k : Index) (s : State) (j : Index) :
    (retireEntry k s).latch j = if k = j then clearedLatch else s.latch j := latch_setLatch s k j _
theorem entry_rearmEntry (k : Index) (s : State) (j : Index) :
    (rearmEntry k s).entry j = if k = j then (s.entry k).rearmed else s.entry j := by
  unfold rearmEntry; dsimp only
  split <;> simp [entry_setEntry]
theorem window_rearmEntry (k : Index) (s : State) (j : Index) : (rearmEntry k s).window j =
    if k = j then armingWindowFor (s.entry k).defn s.mlc.armingWindow else s.window j := by
  unfold rearmEntry; dsimp only
  split <;> simp [window_setWindow]

end Sys2Proof.Machine
end

