-- ==== Sys2Proof/Laws/Steps.lean ====
section
/-! SUPPORT. What a step can do, said once: the passage of time, and `exec_preserves`, which reduces a property that every
command keeps to the operations that commands are made of, each with the condition under which it is done. -/
namespace Sys2Proof.Machine

/-! ### The passage of time -/

/-- Outside SUPERVISE no window event is due (R134, R135). -/
theorem takeDue_of_not_supervise {s : State} (h : s.esc.device ≠ .supervise) (k : Index) : takeDue k s = s := by
  have hw : s.windowsRun = false := by simp [State.windowsRun, h]
  simp [takeDue, State.closedEndDue, State.armingDue, State.openDue, State.staleDue, hw]

/-- Taking the events still due changes nothing when none is. -/
theorem takeAllDue_of_fixed {s : State} (h : ∀ k, takeDue k s = s) : takeAllDue s = s := by
  unfold takeAllDue
  generalize indices = l
  induction l with
  | nil => rfl
  | cons k l ih => rw [List.foldl_cons, h k, ih]

/-- Ticks outside SUPERVISE change nothing (R134, R135). -/
theorem ticks_of_not_supervise {s : State} (h : s.esc.device ≠ .supervise) (n : Nat) : ticks n s = s := by
  have ht : oneTick s = s := by
    rw [oneTick, takeAllDue_of_fixed (takeDue_of_not_supervise h)]
    have hw : s.windowsRun = false := by simp [State.windowsRun, h]
    rw [lowerWindows, hw, onlyIf_false]
  induction n with
  | zero => rfl
  | succ n ih => rw [ticks, ht, ih]

/-- What an expiry does to one entry: of its own entry it counts a LATE, and of any other it may discard the pending half. -/
theorem entry_lateExpiry (j : Index) (s : State) (k : Index) : (lateExpiry j s).entry k = (if j = k then (s.entry j).late
    else s.entry k) ∨ (lateExpiry j s).entry k = (if j = k then (s.entry j).late else s.entry k).discardPending := by
  by_cases h : (s.entry j).faultCounter + 1 = (s.entry j).defn.threshold
  · rw [lateExpiry_of_eq h, entry_takeFailure]
    simp only [entry_latchEvents, entry_setWindow, entry_setEntry]
    split_ifs <;> first | exact .inl rfl | exact .inr rfl
  · rw [lateExpiry_of_ne h]
    simp [entry_setEntry]
/-- What an expiry does to one window record. -/
theorem window_lateExpiry (j : Index) (s : State) (k : Index) : (lateExpiry j s).window k =
    if j = k then (if (s.entry j).faultCounter + 1 = (s.entry j).defn.threshold then stoppedWindow
      else staleWindow (s.entry j).defn) else s.window k := by
  by_cases h : (s.entry j).faultCounter + 1 = (s.entry j).defn.threshold
  · rw [lateExpiry_of_eq h]; simp [window_setWindow, h]
  · rw [lateExpiry_of_ne h]; simp [window_setWindow, h]
/-- An expiry keeps the device state, or brings LOCKDOWN (R152). -/
theorem device_lateExpiry (j : Index) (s : State) :
    (lateExpiry j s).esc.device = s.esc.device ∨ (lateExpiry j s).esc.device = .lockdown := by
  by_cases h : (s.entry j).faultCounter + 1 = (s.entry j).defn.threshold
  · rw [lateExpiry_of_eq h]
    unfold takeFailure
    dsimp only
    split
    · right; rw [esc_enterLockdown]; rfl
    · left; simp [applyReaction]
  · rw [lateExpiry_of_ne h]; simp

/-- The events of one list of commands after another. -/
theorem execAll_append (l m : List Instr) {s t : State} (h : execAll l s = .next t) :
    execAll (l ++ m) s = execAll m t := by
  induction l generalizing s with
  | nil => cases h; rfl
  | cons i l ih =>
    simp only [List.cons_append, execAll] at h ⊢
    cases hx : exec i s with
    | next u => rw [hx] at h; exact ih h
    | fault f => rw [hx] at h; cases h
    | refused r => rw [hx] at h; cases h

/-- A closed window that is not empty is shorter than its refresh period (R125). -/
theorem closedMs_lt_periodMs {d : Definition} (h : d.closedMs ≠ 0) : d.closedMs < d.periodMs := by
  unfold Definition.closedMs Definition.periodMs ClosedFraction.quarters at *
  cases d.closedFraction <;> cases hp : d.period <;> simp_all [Period.ms]

/-- After an expiry the entry is STALE or FAILED, so of its events only the next stale period's end can be due. -/
theorem due_lateExpiry (k : Index) (s : State) :
    (lateExpiry k s).armingDue k = false ∧ (lateExpiry k s).openDue k = false ∧
      (lateExpiry k s).closedEndDue k = false := by
  have hs : ((lateExpiry k s).entry k).state = .stale ∨ ((lateExpiry k s).entry k).state = .failed := by
    rcases entry_lateExpiry k s k with e | e <;> rw [e, if_pos rfl] <;>
      simp only [Entry.discardPending, Entry.late] <;> split <;> simp
  simp only [State.armingDue, State.openDue, State.closedEndDue]
  rcases hs with hs | hs <;> simp [hs]

/-- The four rows of one entry take its event still due. -/
theorem execAll_rows (k : Index) (s : State) :
    execAll [.stalePeriodExpiry k, .openWindowExpiry k, .armingExpiry k, .closedWindowEnd k] s = .next (takeDue k s) := by
  simp only [execAll, exec, execStalePeriodExpiry, execOpenWindowExpiry, execArmingExpiry, execClosedWindowEnd]
  congr 1
  obtain ⟨n1, n2, n3⟩ := due_lateExpiry k s
  by_cases h4 : s.closedEndDue k = true
  · have h := h4
    simp only [State.closedEndDue, Bool.and_eq_true, beq_iff_eq, bne_iff_ne] at h
    obtain ⟨⟨⟨⟨_, hw⟩, hc⟩, hl⟩, _⟩ := h
    have h1 : s.staleDue k = false := by simp [State.staleDue, hl]
    have h3 : s.armingDue k = false := by simp [State.armingDue, hl]
    have h2 : s.openDue k = false := by
      have := closedMs_lt_periodMs hc
      simp only [State.openDue, hw, Bool.and_eq_false_iff, beq_eq_false_iff_ne]
      exact .inl (.inr fun h => by simp only [Window.mk.injEq, true_and] at h; omega)
    simp [takeDue, h1, h2, h3, h4]
  · rw [Bool.not_eq_true] at h4
    cases h1 : s.staleDue k <;> cases h2 : s.openDue k <;> cases h3 : s.armingDue k <;>
      simp [takeDue, h1, h2, h3, h4, n1, n2, n3]

/-- The rows of the window events, in index order, take every event still due (log 6). -/
theorem execAll_windowRows (s : State) : execAll windowRows s = .next (takeAllDue s) := by
  have fold : ∀ (l : List Index) (s : State),
      execAll (l.flatMap fun k => [.stalePeriodExpiry k, .openWindowExpiry k, .armingExpiry k, .closedWindowEnd k]) s =
        .next (l.foldl (fun t k => takeDue k t) s) := by
    intro l
    induction l with
    | nil => exact fun _ => rfl
    | cons k l ih => intro s; rw [List.flatMap_cons, execAll_append _ _ (execAll_rows k s), ih]; rfl
  exact fold _ s

/-- The end of a closed window is due after an event of entry `j` only if it was due before, at another entry. -/
theorem closedEndDue_takeDue {j k : Index} {s : State} (h : (takeDue j s).closedEndDue k = true) :
    k ≠ j ∧ s.closedEndDue k = true := by
  unfold takeDue at h
  split at h
  · rename_i hd
    by_cases hk : k = j
    · subst hk; simp [State.closedEndDue, openPhase] at h
    · refine ⟨hk, ?_⟩
      simpa [State.closedEndDue, openPhase, State.windowsRun, entry_setEntry_of_ne s (Ne.symm hk)] using h
  · rename_i hd
    rcases onlyIf_cases (s.armingDue j || s.openDue j || s.staleDue j) (lateExpiry j) s with ⟨-, e⟩ | ⟨-, e⟩
    · rw [e] at h
      simp only [State.closedEndDue, State.windowsRun, Bool.and_eq_true, beq_iff_eq] at h
      obtain ⟨⟨⟨⟨hw, hwin⟩, hc⟩, hl⟩, hp⟩ := h
      have hdev : s.esc.device = .supervise := by
        rcases device_lateExpiry j s with e | e <;> rw [e] at hw
        · exact hw
        · cases hw
      by_cases hk : k = j
      · subst hk
        rcases entry_lateExpiry k s k with e | e <;> rw [e, if_pos rfl] at hl <;>
          simp only [Entry.discardPending, Entry.late] at hl <;> split at hl <;> cases hl
      · refine ⟨hk, ?_⟩
        rw [window_lateExpiry, if_neg (Ne.symm hk)] at hwin
        rcases entry_lateExpiry j s k with e | e <;> rw [e, if_neg (Ne.symm hk)] at hwin hc hl hp <;>
          (try simp only [Entry.discardPending] at hwin hc hl hp) <;>
          simp [State.closedEndDue, State.windowsRun, hdev, hwin, hl, hp] <;> simpa using hc
    · rw [e] at h
      refine ⟨?_, h⟩
      rintro rfl
      exact hd h

/-- Once the events due are taken, no closed window is at its end. -/
theorem closedEndDue_takeAllDue (s : State) (k : Index) : (takeAllDue s).closedEndDue k = false := by
  have fold : ∀ (l : List Index) (s : State),
      (l.foldl (fun t k => takeDue k t) s).closedEndDue k = true → k ∉ l ∧ s.closedEndDue k = true := by
    intro l
    induction l with
    | nil => exact fun s h => ⟨by simp, h⟩
    | cons j l ih =>
      intro s h
      obtain ⟨h1, h2⟩ := ih _ h
      obtain ⟨h3, h4⟩ := closedEndDue_takeDue h2
      exact ⟨by simp [h1, h3], h4⟩
  by_contra hc
  have h : (takeAllDue s).closedEndDue k = true := by simpa using hc
  exact (fold indices s h).1 (mem_indices k)

/-- A property that window events keep, and the lowering of the windows with no closed window at its end, is kept by any
number of ticks. -/
theorem ticks_preserves {P : State → Prop} (due : ∀ k s, P s → P (takeDue k s))
    (lower : ∀ s, (∀ k, s.closedEndDue k = false) → P s → P (lowerWindows s)) (n : Nat) (s : State) (h : P s) :
    P (ticks n s) := by
  have fold : ∀ (l : List Index) (s : State), P s → P (l.foldl (fun t k => takeDue k t) s) := by
    intro l
    induction l with
    | nil => exact fun _ h => h
    | cons k l ih => exact fun s h => ih _ (due k s h)
  induction n generalizing s with
  | zero => exact h
  | succ n ih => exact ih _ (lower _ (closedEndDue_takeAllDue s) (fold indices s h))

/-! ### Draft fields -/

/-- DRAFT_SET keeps every field of the draft in its range (R2, R184). -/
theorem inRange_setField {d x : Definition} {f : Byte} {v : Bytes8} (hd : d.inRange) (h : d.setField f v = some x) :
    x.inRange := by
  obtain ⟨h1, h2, h3, h4, h5, h6, h7⟩ := hd
  unfold Definition.setField at h
  split at h
  all_goals
    first
      | (split_ifs at h with hc; cases h)
      | (rw [Option.map_eq_some_iff] at h; obtain ⟨y, _, rfl⟩ := h)
      | cases h
  all_goals
    first
      | exact ⟨h1, h2, h3, h4, h5, h6, h7⟩
      | exact ⟨h1, hc.1, hc.2, h4, h5, h6, h7⟩
      | exact ⟨h1, h2, h3, hc.1, hc.2, h6, h7⟩
      | exact ⟨h1, h2, h3, h4, h5, hc.1, hc.2⟩
      | (refine ⟨fun hz => ?_, h2, h3, h4, h5, h6, h7⟩
         have hw := congrArg BitVec.toNat hz
         change v.toNat % 16 = 0 at hw
         omega)

/-- DRAFT_OMIT keeps every field of the draft in its range (R185). -/
theorem inRange_omitField {d x : Definition} {f : Byte} (hd : d.inRange) (h : d.omitField f = some x) :
    x.inRange := by
  unfold Definition.omitField at h
  split at h <;> cases h <;> exact hd

/-! ### The operations that commands are made of -/

/-- A link controller that differs from that of `s` in the registers of the link and the reply alone. -/
def sameSettings (s : State) (m : Mlc) : Prop :=
  m.draft = s.mlc.draft ∧ m.buffer = s.mlc.buffer ∧ m.startCause = s.mlc.startCause ∧
  m.armingWindow = s.mlc.armingWindow ∧ m.poison = s.mlc.poison ∧ m.alertEnable = s.mlc.alertEnable

/-- The operations that commands are made of keep `P`, each where a command does it. -/
structure Keeps (P : State → Prop) : Prop where
  /-- CS_N, the link's registers and the pending reply. -/
  link : ∀ s c m, sameSettings s m → P s → P { s with pins := { s.pins with csLow := c }, mlc := m }
  /-- The model's own counter of open values. -/
  free : ∀ (s : State) (n : Nat), P s → P { s with freeCount := n }
  /-- A request held offered, or taken off. -/
  offered : ∀ s o, P s → P (s.setOffered o)
  /-- The acceptance of a request. -/
  write : ∀ s r, s.canAccept = true → P s → P (acceptWrite r s)
  read : ∀ s r, s.canAccept = true → P s → P (acceptRead r s)
  /-- The way of a slot. -/
  issue : ∀ s, s.msi.stage = [] → P s → P (issueOldest s)
  accept : ∀ s, P s → P (acceptAccess s)
  answer : ∀ s tag st d, P s → P (takeAnswer tag st d s)
  response : ∀ s, P s → P (takeResponse s)
  /-- The reset pins. -/
  prst : ∀ s b, P s → P (s.setPrst b)
  porst : ∀ s, P s → P (s.setPorst false)
  processorReset : ∀ s, s.pins.prst = true → P s → P (drain (rearmEntries s))
  powerOn : ∀ s, P s → P ((powerOnValues s).setPorst true)
  /-- Time. -/
  divider : ∀ (s : State) (n : Nat), P s → P { s with timer := { s.timer with divider := n } }
  lower : ∀ s, s.esc.device = .supervise → (∀ k, s.closedEndDue k = false) → P s → P (s.mapWindows fun _ w => w.lowered)
  openPhase : ∀ s k, s.closedEndDue k = true → P s → P (openPhase k s)
  late : ∀ s k, (s.armingDue k || s.openDue k || s.staleDue k) = true → P s → P (lateExpiry k s)
  /-- The settings and the draft. -/
  arming : ∀ s w, P s → P (putArmingWindow w s)
  poison : ∀ s w, s.esc.device = .configure → P s → P (putPoison w s)
  alert : ∀ s b, P s → P (putAlertEnable b s)
  draft : ∀ s d, (d = draftDefaults ∨ (∃ f v, s.mlc.draft.setField f v = some d) ∨ ∃ f, s.mlc.draft.omitField f = some d) →
    P s → P (s.setDraft d)
  /-- The table. -/
  install : ∀ s k, s.esc.device ≠ .lockdown → (s.entry k).state = .empty → s.mlc.draft.consistent = true →
    s.draftOverlaps s.mlc.draft = false → P s → P (installDraft k s)
  retire : ∀ s k, s.esc.device ≠ .lockdown → (s.entry k).state ≠ .empty → (s.entry k).state ≠ .failed →
    P s → P (retireEntry k s)
  rearm : ∀ s k, s.esc.device = .supervise → (s.entry k).state ≠ .empty → (s.entry k).state ≠ .defined →
    P s → P (rearmEntry k s)
  start : ∀ s, s.esc.device = .configure → P s → P (startSupervision s)
  stop : ∀ s, s.esc.device = .supervise → (∀ k, (s.entry k).state ≠ .failed) → P s → P (stopSupervision s)
  /-- Escalation and collection. -/
  lockdown : ∀ s, s.esc.device ≠ .lockdown → P s → P (enterLockdown .monitor s)
  release : ∀ s sel, s.esc.device ≠ .lockdown → (s.group sel).state = .latched → P s → P (s.setGroupState sel .clear)
  force : ∀ s sel, (s.group sel).state = .clear → P s → P (s.setGroupState sel .latched)
  collect : ∀ s k, (k ∈ s.events.attention ∨ (s.latch k).latched ≠ 0) → P s →
    P (clearLatch k { s with mlc := { s.mlc with buffer := some (s.collectionRecord k) } })
  softReset : ∀ s, P s → P (softResetAll s)

variable {P : State → Prop}

theorem Keeps.reply (h : Keeps P) (s : State) (r : Reply) (hp : P s) : P (s.setReply r) :=
  h.link s s.pins.csLow { s.mlc with reply := r } ⟨rfl, rfl, rfl, rfl, rfl, rfl⟩ hp

theorem Keeps.checked (h : Keeps P) {code sel : Byte} {inRange : Bool} {run : State → State} {s : State} (hp : P s)
    (hr : admits code sel s.esc.device = true → P (run s)) : P (checked code sel inRange run s) := by
  rcases checked_cases code sel inRange run s with ⟨st, e⟩ | ⟨ha, e⟩ <;> rw [e]
  · exact h.reply _ _ hp
  · exact hr ha

theorem Keeps.checkedIndex (h : Keeps P) {code sel : Byte} {run : Index → State → State} {s : State} (hp : P s)
    (hr : admits code sel s.esc.device = true → ∀ k, P (run k s)) : P (checkedIndex code sel run s) := by
  rcases checkedIndex_cases code sel run s with ⟨st, e⟩ | ⟨ha, k, e⟩ <;> rw [e]
  · exact h.reply _ _ hp
  · exact hr ha k

theorem Keeps.takeFrame (h : Keeps P) {fits : Byte → Byte → Bool} {run : Byte → Byte → Bytes8 → State → State}
    {code sel : Byte} {arg : Bytes8} {s : State} (hp : P s)
    (hr : ∀ c v a t, fits c v = true → P t → P (run c v a t)) : P (takeFrame fits run code sel arg s) := by
  rcases takeFrame_cases fits run code sel arg s with e | e | e | ⟨c, v, a, m, hf, hm, _, _, e⟩ <;> rw [e]
  · exact hp
  · exact h.link s false { s.mlc with frameOpen := false } ⟨rfl, rfl, rfl, rfl, rfl, rfl⟩ hp
  · exact h.link s false { s.mlc with frameOpen := false, reply := ⟨.badFrame, s.mlc.receivedCode, 0⟩ }
      ⟨rfl, rfl, rfl, rfl, rfl, rfl⟩ hp
  · obtain ⟨-, h1, h2, h3, h4, h5, h6, -⟩ := hm
    exact hr c v a _ hf (h.link s false m ⟨h1, h2, h3, h4, h5, h6⟩ hp)

theorem Keeps.takeCommand (h : Keeps P) {code sel : Byte} {arg : Bytes8} {run : Byte → Bytes8 → State → State}
    {s : State} (hp : P s) (hr : ∀ v a t, P t → P (run v a t)) : P (takeCommand code run sel arg s) :=
  h.takeFrame hp fun _ v a t _ => hr v a t

theorem Keeps.acceptOrHold (h : Keeps P) (o : Offer) {s : State} (hp : P s) : P (acceptOrHold o s) := by
  unfold Machine.acceptOrHold
  split
  · rename_i hc
    cases o with
    | write r => exact h.write _ r hc (h.offered s none hp)
    | read r => exact h.read _ r hc (h.offered s none hp)
  · exact h.offered s _ hp

theorem Keeps.offer (h : Keeps P) (o : Offer) {s : State} (hp : P s) : P (offer o s) := by
  unfold Machine.offer
  split
  · exact h.acceptOrHold o hp
  · rename_i held _
    split
    · exact h.acceptOrHold o hp
    · split
      · rename_i hc
        have hh : P (acceptOffer held s) := by
          have := h.acceptOrHold held hp
          rwa [Machine.acceptOrHold, if_pos hc] at this
        exact h.acceptOrHold o hh
      · exact hp

theorem Keeps.onlyIf (c : Bool) {f : State → State} {s : State} (hp : P s) (hf : c = true → P (f s)) :
    P (onlyIf c f s) := by
  cases c
  · exact hp
  · exact hf rfl

theorem Keeps.takeDue (h : Keeps P) (k : Index) (s : State) (hp : P s) : P (takeDue k s) := by
  unfold Machine.takeDue
  split
  · rename_i hc; exact h.openPhase s k hc hp
  · exact Keeps.onlyIf _ hp fun hc => h.late s k hc hp

theorem Keeps.ticks (h : Keeps P) (n : Nat) (s : State) (hp : P s) : P (ticks n s) :=
  ticks_preserves h.takeDue
    (fun s hd hs => Keeps.onlyIf _ hs fun hc => h.lower s (by simpa [State.windowsRun] using hc) hd hs) n s hp

theorem Keeps.clockIn (h : Keeps P) (b : Bool) (s : State) (hp : P s) : P (clockIn b s) := by
  unfold Machine.clockIn
  split
  · exact h.link s s.pins.csLow (s.mlc.shiftIn b) ⟨rfl, rfl, rfl, rfl, rfl, rfl⟩ hp
  · exact hp

theorem Keeps.clockOut (h : Keeps P) (s : State) (hp : P s) : P (clockOut s) := by
  unfold Machine.clockOut
  split
  · exact h.link s s.pins.csLow s.mlc.shiftOut ⟨rfl, rfl, rfl, rfl, rfl, rfl⟩ hp
  · split
    · exact h.free s _ hp
    · exact hp

theorem Keeps.beginFrame (h : Keeps P) (s : State) (hp : P s) : P (beginFrame s) := by
  unfold Machine.beginFrame
  split
  · exact h.link s true { s.mlc with frameOpen := false } ⟨rfl, rfl, rfl, rfl, rfl, rfl⟩ hp
  · exact h.link s true { s.mlc with frameOpen := true, bitCount := 0, outReg := s.mlc.reply.word }
      ⟨rfl, rfl, rfl, rfl, rfl, rfl⟩ hp

theorem Keeps.shiftBits (h : Keeps P) (bits : List Bool) (s : State) (hp : P s) : P (shiftBits bits s) := by
  unfold Machine.shiftBits
  induction bits generalizing s with
  | nil => exact hp
  | cons b bits ih => exact ih _ (h.clockOut _ (h.clockIn b s hp))

theorem Keeps.riseOnBadFrame (h : Keeps P) (s : State) (hp : P s) : P (riseOnBadFrame s) := by
  unfold Machine.riseOnBadFrame
  split
  · exact h.link s false { s.mlc with frameOpen := false } ⟨rfl, rfl, rfl, rfl, rfl, rfl⟩ hp
  · split
    · exact hp
    · exact h.link s false { s.mlc with frameOpen := false, reply := ⟨.badFrame, s.mlc.receivedCode, 0⟩ }
        ⟨rfl, rfl, rfl, rfl, rfl, rfl⟩ hp

theorem Keeps.takeSetDevice (h : Keeps P) {α : Type} {k sel : Byte} {value : Bytes8 → Option α}
    {put : α → State → State} {arg : Bytes8} {s : State} (hp : P s)
    (hput : ∀ x t, admits 0x03#8 k t.esc.device = true → P t → P (put x t)) :
    P (takeSetDevice k value put sel arg s) := by
  refine h.takeFrame hp fun _ v a t _ ht => ?_
  unfold setSetting
  split
  · exact h.reply _ _ ht
  · rename_i ha
    split
    · exact h.reply _ _ ht
    · rename_i hv
      have e : v = k := by simpa using hv
      subst e
      split
      · exact h.reply _ _ ht
      · exact h.reply _ _ (hput _ t (by simpa using ha) ht)

theorem Keeps.changeDraft (h : Keeps P) {code : Byte} {d : Option Definition} {s : State} (hp : P s)
    (hd : ∀ x, d = some x → (∃ f v, s.mlc.draft.setField f v = some x) ∨ ∃ f, s.mlc.draft.omitField f = some x) :
    P (changeDraft code d s) := by
  unfold Machine.changeDraft
  split
  · exact h.reply _ _ hp
  · rename_i x
    exact h.reply _ _ (h.draft s x (.inr (hd x rfl)) hp)

theorem Keeps.collectFrom (h : Keeps P) (code : Byte) (k : Index) (s : State)
    (hk : k ∈ s.events.attention ∨ (s.latch k).latched ≠ 0) (hp : P s) : P (collectFrom code k s) :=
  h.reply _ _ (h.collect s k hk hp)

/-- A property that the operations keep is kept by every command. -/
theorem exec_preserves (h : Keeps P) (i : Instr) {s t : State} (hx : exec i s = .next t) (hp : P s) : P t := by
  have hn : ∀ {u : State}, (.next u : Result) = .next t → P u → P t := fun e hu => by cases e; exact hu
  cases i with
  | writeArrival ini tag addr lanes data => exact hn hx (h.offer _ hp)
  | readArrival ini tag addr => exact hn hx (h.offer _ hp)
  | slotIssue => exact hn hx (Keeps.onlyIf _ hp fun hc => h.issue s (by simp at hc; exact hc.2) hp)
  | memoryAccept => exact hn hx (Keeps.onlyIf _ hp fun _ => h.accept s hp)
  | memoryAnswer tag st d => exact hn hx (Keeps.onlyIf _ hp fun _ => h.answer s tag st d hp)
  | responseTaken => exact hn hx (Keeps.onlyIf _ hp fun _ => h.response s hp)
  | processorSideReset =>
    exact hn hx (Keeps.onlyIf _ hp fun _ => h.processorReset _ rfl (h.prst s true hp))
  | prstNRelease => exact hn hx (h.prst s false hp)
  | powerOnReset => exact hn hx (h.powerOn s hp)
  | porstNRelease => exact hn hx (h.porst s hp)
  | tick n => exact hn hx (Keeps.onlyIf _ hp fun _ => h.ticks _ _ (h.divider s _ hp))
  | armingExpiry k => exact hn hx (Keeps.onlyIf _ hp fun hc => h.late s k (by simp [hc]) hp)
  | closedWindowEnd k => exact hn hx (Keeps.onlyIf _ hp fun hc => h.openPhase s k hc hp)
  | openWindowExpiry k => exact hn hx (Keeps.onlyIf _ hp fun hc => h.late s k (by simp [hc]) hp)
  | stalePeriodExpiry k => exact hn hx (Keeps.onlyIf _ hp fun hc => h.late s k (by simp [hc]) hp)
  | frameStart => exact hn hx (Keeps.onlyIf _ hp fun _ => h.beginFrame s hp)
  | badFrame bits =>
    refine hn hx ?_
    unfold takeBadFrame
    split
    · exact h.riseOnBadFrame s hp
    · dsimp only
      split
      · exact hp
      · exact h.riseOnBadFrame _ (h.shiftBits _ _ (h.beginFrame s hp))
  | badCommand c v a => exact hn hx (h.takeFrame hp fun _ _ _ _ _ ht => h.reply _ _ ht)
  | nop v a => exact hn hx (h.takeCommand hp fun _ _ _ ht => h.reply _ _ ht)
  | identify v a => exact hn hx (h.takeCommand hp fun _ _ _ ht => h.reply _ _ ht)
  | deviceStatus v a => exact hn hx (h.takeCommand hp fun _ _ _ ht => h.checked ht fun _ => h.reply _ _ ht)
  | setArmingWindow v a => exact hn hx (h.takeSetDevice hp fun x t _ ht => h.arming t x ht)
  | setPoisonWord v a =>
    refine hn hx (h.takeSetDevice hp fun x t ha ht => h.poison t x ?_ ht)
    cases hd : t.esc.device <;> simp [hd, admits] at ha ⊢
  | setAlertEnable v a => exact hn hx (h.takeSetDevice hp fun x t _ ht => h.alert t x ht)
  | draftClear v a =>
    exact hn hx (h.takeCommand hp fun _ _ t ht => h.checked ht fun _ => h.reply _ _ (h.draft t _ (.inl rfl) ht))
  | draftSet v a =>
    exact hn hx (h.takeCommand hp fun f v t ht => h.checked ht fun _ =>
      h.changeDraft ht fun x hxx => .inl ⟨f, v, hxx⟩)
  | draftOmit v a =>
    exact hn hx (h.takeCommand hp fun f _ t ht => h.checked ht fun _ =>
      h.changeDraft ht fun x hxx => .inr ⟨f, hxx⟩)
  | install v a =>
    refine hn hx (h.takeCommand hp fun _ _ t ht => h.checkedIndex ht fun ha k => ?_)
    unfold Machine.install
    split
    · exact h.reply _ _ ht
    · rename_i h1
      split
      · exact h.reply _ _ ht
      · rename_i h2
        split
        · exact h.reply _ _ ht
        · rename_i h3
          refine h.reply _ _ (h.install t k ?_ (by simpa using h1) (by simpa using h2) (by simpa using h3) ht)
          intro hd; rw [hd] at ha; simp [admits] at ha
  | retire v a =>
    refine hn hx (h.takeCommand hp fun _ _ t ht => h.checkedIndex ht fun ha k => ?_)
    unfold Machine.retire
    have hd : t.esc.device ≠ .lockdown := by intro hd; rw [hd] at ha; simp [admits] at ha
    split
    · exact h.reply _ _ ht
    · exact h.reply _ _ ht
    all_goals
      rename_i hs
      exact h.reply _ _ (h.retire t k hd (by rw [hs]; decide) (by rw [hs]; decide) ht)
  | rearm v a =>
    refine hn hx (h.takeCommand hp fun _ _ t ht => h.checkedIndex ht fun ha k => ?_)
    unfold Machine.rearm
    have hd : t.esc.device = .supervise := by cases hd : t.esc.device <;> simp [hd, admits] at ha ⊢
    split
    · exact h.reply _ _ ht
    · exact h.reply _ _ ht
    all_goals
      rename_i hs
      exact h.reply _ _ (h.rearm t k hd (by rw [hs]; decide) (by rw [hs]; decide) ht)
  | readEntry v a =>
    refine hn hx (h.takeCommand hp fun _ p t ht => h.checkedIndex ht fun _ k => ?_)
    unfold Machine.readEntry
    split <;> exact h.reply _ _ ht
  | start v a =>
    refine hn hx (h.takeCommand hp fun _ _ t ht => h.checked ht fun ha => h.reply _ _ (h.start t ?_ ht))
    cases hd : t.esc.device <;> simp [hd, admits] at ha ⊢
  | stop v a =>
    refine hn hx (h.takeCommand hp fun _ _ t ht => h.checked ht fun ha => ?_)
    have hd : t.esc.device = .supervise := by cases hd : t.esc.device <;> simp [hd, admits] at ha ⊢
    unfold Machine.stop
    split
    · exact h.reply _ _ ht
    · rename_i hf
      refine h.reply _ _ (h.stop t hd (fun k hk => hf ?_) ht)
      simp only [State.anyFailed, List.any_eq_true]
      exact ⟨k, mem_indices k, by simp [hk]⟩
  | lockdown v a =>
    refine hn hx (h.takeCommand hp fun _ _ t ht => h.checked ht fun ha => h.reply _ _ (h.lockdown t ?_ ht))
    intro hd; rw [hd] at ha; simp [admits] at ha
  | releaseGroup v a =>
    refine hn hx (h.takeCommand hp fun g _ t ht => h.checked ht fun ha => ?_)
    unfold Machine.releaseGroup
    split
    · rename_i hs
      refine h.reply _ _ (h.release t g ?_ hs ht)
      intro hd; rw [hd] at ha; simp [admits] at ha
    · exact h.reply _ _ ht
    · exact h.reply _ _ ht
  | forceGroup v a =>
    refine hn hx (h.takeCommand hp fun g _ t ht => h.checked ht fun _ => ?_)
    unfold Machine.forceGroup
    split
    · rename_i hs; exact h.reply _ _ (h.force t g hs ht)
    · exact h.reply _ _ ht
    · exact h.reply _ _ ht
  | collect v a =>
    refine hn hx (h.takeCommand hp fun _ _ t ht => h.checked ht fun _ => ?_)
    unfold collectHead
    split
    · exact h.reply _ _ ht
    · rename_i k l hl
      exact h.collectFrom _ k t (.inl (by rw [hl]; exact List.mem_cons_self)) ht
  | collectEntry v a =>
    refine hn hx (h.takeCommand hp fun _ _ t ht => h.checkedIndex ht fun _ k => ?_)
    unfold collectNamed
    split
    · exact h.reply _ _ ht
    · rename_i hl
      exact h.collectFrom _ k t (.inr (by simpa using hl)) ht
  | collectedPart v a => exact hn hx (h.takeCommand hp fun _ _ _ ht => h.checked ht fun _ => h.reply _ _ ht)
  | softReset v a => exact hn hx (h.takeCommand hp fun _ _ t ht => h.softReset t ht)
  | sckRisingEdge b => exact hn hx (h.clockIn b s hp)
  | sckFallingEdge => exact hn hx (h.clockOut s hp)

/-- A property that the operations keep, and that does not look at the waiting commands, is kept by every step. -/
theorem step_preserves (h : Keeps P) (pend : ∀ (s : State) (l : List Instr), P s → P { s with pending := l })
    {s t : State} (hx : step s = .next t) (hp : P s) : P t := by
  unfold step at hx
  split at hx
  · exact exec_preserves h _ hx (pend s _ hp)
  · cases hx
    unfold acceptHeldOffer
    split
    · exact hp
    · exact h.acceptOrHold _ hp

end Sys2Proof.Machine
end

