-- ==== Sys2Proof/Laws/Entries.lean ====
section
/-! SUPPORT. A property of single entries is kept by every step when the changes of one entry keep it: the reduction of the
laws over the table to the few functions that change an entry. -/
namespace Sys2Proof.Machine

/-- What an inspected write makes of its entry (R50): the result's entry, with the phase of a cycle restart. -/
def entryAfterWrite (e : Entry) (r : WriteRequest) : Entry :=
  let x := inspect e r
  if x.fails = false ∧ x.restart = true then { x.next with phase := restartPhase x.next.defn } else x.next

/-- The entry of an inspection, in the state the inspection leaves. -/
theorem entry_applyInspection (k : Index) (r : WriteRequest) (s : State) (j : Index) :
    (applyInspection k r (inspect (s.entry k) r) s).entry j =
        (if k = j then entryAfterWrite (s.entry k) r else s.entry j) ∨
      (applyInspection k r (inspect (s.entry k) r) s).entry j =
        (if k = j then entryAfterWrite (s.entry k) r else s.entry j).discardPending := by
  cases hf : (inspect (s.entry k) r).fails
  · left
    rw [applyInspection_of_not_fails hf, entry_latchEvents, entry_placeSlot, entry_applyTiming]
    rfl
  · rw [applyInspection_of_fails hf, entry_takeFailure]
    split
    · right; rw [entry_latchEvents, entry_placeSlot, entry_applyTiming]; rfl
    · left; rw [entry_latchEvents, entry_placeSlot, entry_applyTiming]; rfl

/-- The acceptance of a write changes at most the entry that it is inspected at. -/
theorem entry_acceptWrite (r : WriteRequest) (s : State) (j : Index) :
    (acceptWrite r s).entry j = s.entry j ∨
    ∃ k, s.esc.device = .supervise ∧ s.lookup r.addr = some k ∧ (s.entry k).state.supervised = true ∧
      acceptWrite r s = applyInspection k r (inspect (s.entry k) r) s := by
  unfold acceptWrite
  dsimp only
  split
  · left; exact entry_congr (by simp) j
  · left; exact entry_congr (by simp) j
  · left; exact entry_congr (by simp) j
  · rename_i k hd hl
    split
    · rename_i hs; exact .inr ⟨k, hd, hl, hs, rfl⟩
    · left; exact entry_congr (by simp) j
/-- The acceptance of a read changes no entry. -/
theorem entries_acceptRead (r : ReadRequest) (s : State) : (acceptRead r s).entries = s.entries := by
  unfold acceptRead
  dsimp only
  split
  · simp
  · simp
  · split <;> simp
theorem entries_acceptAccess (s : State) : (acceptAccess s).entries = s.entries := by
  unfold acceptAccess; split <;> rfl
theorem entries_takeAnswer (tag : SlotNo) (st : Answer) (d : Word) (s : State) :
    (takeAnswer tag st d s).entries = s.entries := by unfold takeAnswer; split <;> rfl
theorem entries_takeResponse (s : State) : (takeResponse s).entries = s.entries := by
  unfold takeResponse; split
  · rfl
  · split <;> rfl

/-- The changes of one entry keep `Q`, for drafts of which `D` holds. -/
structure KeepsEntry (D : Definition → Prop) (Q : Entry → Prop) : Prop where
  defaults : D draftDefaults
  setField : ∀ d f v x, D d → d.setField f v = some x → D x
  omitField : ∀ d f x, D d → d.omitField f = some x → D x
  empty : Q emptyEntry
  discard : ∀ e, Q e → Q e.discardPending
  write : ∀ e r, e.state.supervised = true → Q e → Q (entryAfterWrite e r)
  late : ∀ e, (e.state = .armed ∨ e.state = .live ∨ e.state = .stale) → Q e → Q e.late
  openPhase : ∀ e, e.state = .live → Q e → Q { e with phase := .opened }
  processorReset : ∀ e, Q e → Q e.afterProcessorReset
  install : ∀ d st, D d → d.consistent = true → st = .armed ∨ st = .defined → Q (freshEntry d st)
  rearm : ∀ e, e.state ≠ .empty → e.state ≠ .defined → Q e → Q e.rearmed
  start : ∀ e, Q e → Q e.started
  stop : ∀ e, Q e → Q e.stopped

/-- The operations keep a property of every entry. -/
theorem KeepsEntry.keeps {D : Definition → Prop} {Q : Entry → Prop} (h : KeepsEntry D Q) :
    Keeps fun s => D s.mlc.draft ∧ ∀ k, Q (s.entry k) := by
  have same : ∀ {s t : State}, t.entries = s.entries → t.mlc.draft = s.mlc.draft →
      (D s.mlc.draft ∧ ∀ k, Q (s.entry k)) → D t.mlc.draft ∧ ∀ k, Q (t.entry k) := by
    intro s t he hd hp
    rw [hd]; exact ⟨hp.1, fun k => by rw [entry_congr he k]; exact hp.2 k⟩
  exact
  { link := fun s c m hm hp => same (s := s) rfl hm.1 hp
    free := fun s n hp => same rfl rfl hp
    offered := fun s o hp => same rfl rfl hp
    write := by
      intro s r hc hp
      have hd : (acceptWrite r s).mlc.draft = s.mlc.draft := by
        unfold acceptWrite; dsimp only
        split
        · simp
        · simp
        · simp
        · split <;> simp
      refine ⟨by rw [hd]; exact hp.1, fun j => ?_⟩
      rcases entry_acceptWrite r s j with e | ⟨k, -, -, hs, e⟩
      · rw [e]; exact hp.2 j
      · rw [e]
        have hq : Q (if k = j then entryAfterWrite (s.entry k) r else s.entry j) := by
          split
          · exact h.write _ r hs (hp.2 k)
          · exact hp.2 j
        rcases entry_applyInspection k r s j with e | e <;> rw [e]
        · exact hq
        · exact h.discard _ hq
    read := fun s r hc hp => same (entries_acceptRead r s) (by
      unfold acceptRead; dsimp only
      split
      · simp
      · simp
      · split <;> simp) hp
    issue := fun s _ hp => same (by simp) (by simp) hp
    accept := fun s hp => same (entries_acceptAccess s) (by unfold acceptAccess; split <;> rfl) hp
    answer := fun s tag st d hp => same (entries_takeAnswer tag st d s) (by unfold takeAnswer; split <;> rfl) hp
    response := fun s hp => same (entries_takeResponse s) (by
      unfold takeResponse; split
      · rfl
      · split <;> rfl) hp
    prst := fun s b hp => same rfl rfl hp
    porst := fun s hp => same rfl rfl hp
    processorReset := by
      intro s _ hp
      refine ⟨by simpa using hp.1, fun k => ?_⟩
      rw [entry_drain, entry_rearmEntries]
      split
      · exact h.processorReset _ (hp.2 k)
      · exact hp.2 k
    powerOn := by
      intro s _
      refine ⟨h.defaults, fun k => ?_⟩
      rw [entry_setPorst, entry_powerOnValues]; exact h.empty
    divider := fun s n hp => same rfl rfl hp
    lower := fun s _ _ hp => same (by simp) (by simp) hp
    openPhase := by
      intro s k hd hp
      refine ⟨hp.1, fun j => ?_⟩
      show Q ((s.setEntry k { s.entry k with phase := .opened }).entry j)
      rw [entry_setEntry]
      split
      · simp only [State.closedEndDue, Bool.and_eq_true, beq_iff_eq] at hd
        exact h.openPhase _ hd.1.2 (hp.2 k)
      · exact hp.2 j
    late := by
      intro s k hd hp
      refine ⟨by simpa using hp.1, fun j => ?_⟩
      have hs : (s.entry k).state = .armed ∨ (s.entry k).state = .live ∨ (s.entry k).state = .stale := by
        simp only [State.armingDue, State.openDue, State.staleDue, Bool.or_eq_true, Bool.and_eq_true, beq_iff_eq] at hd
        tauto
      have hq : Q (if k = j then (s.entry k).late else s.entry j) := by
        split
        · exact h.late _ hs (hp.2 k)
        · exact hp.2 j
      rcases entry_lateExpiry k s j with e | e <;> rw [e]
      · exact hq
      · exact h.discard _ hq
    arming := fun s w hp => same rfl rfl hp
    poison := fun s w _ hp => same rfl rfl hp
    alert := fun s b hp => same rfl rfl hp
    draft := by
      intro s d hd hp
      refine ⟨?_, hp.2⟩
      rcases hd with rfl | ⟨f, v, e⟩ | ⟨f, e⟩
      · exact h.defaults
      · exact h.setField _ f v _ hp.1 e
      · exact h.omitField _ f _ hp.1 e
    install := by
      intro s k _ _ hc _ hp
      refine ⟨?_, fun j => ?_⟩
      · unfold installDraft; split <;> exact hp.1
      · rw [entry_installDraft]
        split
        · refine h.install _ _ hp.1 hc ?_
          split
          · exact .inl rfl
          · exact .inr rfl
        · exact hp.2 j
    retire := by
      intro s k _ _ _ hp
      refine ⟨hp.1, fun j => ?_⟩
      rw [entry_retireEntry]
      split
      · exact h.empty
      · exact hp.2 j
    rearm := by
      intro s k _ h1 h2 hp
      refine ⟨?_, fun j => ?_⟩
      · unfold rearmEntry; dsimp only; split <;> exact hp.1
      · rw [entry_rearmEntry]
        split
        · exact h.rearm _ h1 h2 (hp.2 k)
        · exact hp.2 j
    start := fun s _ hp => ⟨by simpa using hp.1, fun k => by rw [entry_startSupervision]; exact h.start _ (hp.2 k)⟩
    stop := fun s _ _ hp => ⟨by simpa using hp.1, fun k => by rw [entry_stopSupervision]; exact h.stop _ (hp.2 k)⟩
    lockdown := fun s _ hp =>
      ⟨by simpa using hp.1, fun k => by rw [entry_enterLockdown]; exact h.discard _ (hp.2 k)⟩
    release := fun s sel _ _ hp => same (by simp) (by simp) hp
    force := fun s sel _ hp => same (by simp) (by simp) hp
    collect := fun s k _ hp => same rfl rfl hp
    softReset := fun s _ => ⟨h.defaults, fun k => by rw [entry_softResetAll]; exact h.empty⟩ }

end Sys2Proof.Machine
end

