-- ==== Sys2Proof/Tests/Slice0.lean ====
section
/-! SUPPORT. The author's own tests: the well-formedness checks, one or two single steps of each command on small states,
and for every statement with hypotheses a concrete state and operands that meet them, clause by clause at the boundary
values. -/
namespace Sys2Proof.Tests
open Sys2Proof Sys2Proof.Machine

set_option maxRecDepth 100000
set_option Elab.async false

/-! ### Small states -/

/-- The state a meaning answers. -/
def after (o : Result) : State :=
  match o with
  | .next t => t
  | .fault _ => State.reset
  | .refused _ => State.reset

/-- An UNSIGNED entry with hard band 10..100, warn high 90, dwell 2, period 10 ms, half of it closed, HOLD. -/
def bounded : Definition :=
  { draftDefaults with
    base := 0x100#26, hardLow := ⟨true, 10⟩, hardHigh := ⟨true, 100⟩, warnHigh := ⟨true, 90⟩, dwell := 2
    period := .ms10, closedFraction := .pct50, violation := .hold }
/-- A LIVE entry with 50 as its last good value. -/
def live0 : Entry := ⟨bounded, .live, .opened, 0, 0, some (.word 50#32), none, .inside, false⟩
/-- A REAL64 entry at 0x200 and 0x201, without a period. -/
def paired : Definition := { draftDefaults with base := 0x200#26, format := .real64, classes := 0x1F#5 }
/-- Its ARMED entry. -/
def armed1 : Entry := ⟨paired, .armed, .closed, 0, 0, none, none, .inside, false⟩

/-- SUPERVISE with entry 0 LIVE and entry 1 ARMED, the groups CLEAR. -/
def running : State :=
  { State.reset with
    entries := (State.reset.entries.set 0 live0).set 1 armed1
    timer := ⟨0, State.reset.timer.windows.set 0 ⟨.cycle, 5⟩⟩
    esc := ⟨.supervise, .none, ⟨.clear, Vector.replicate 64 false⟩, ⟨.clear, Vector.replicate 64 false⟩⟩ }

/-- A state of `running` with entry 0 changed. -/
def with0 (e : Entry) : State := running.setEntry 0 e
/-- Entry 0 one fault below its threshold. -/
def nearly (r : Reaction) : Entry := { live0 with faultCounter := 2, defn := { bounded with reaction := r } }
/-- `running` in LOCKDOWN. -/
def locked : State :=
  running.setEscalation ⟨.lockdown, .monitor, ⟨.tripped, Vector.replicate 64 false⟩, ⟨.tripped, Vector.replicate 64 false⟩⟩
/-- `running` with entry 0 FAILED and group A TRIPPED for it. -/
def failed0 : State :=
  ((with0 { live0 with state := .failed, faultCounter := 3 }).setWindow 0 stoppedWindow).setEscalation
    ⟨.supervise, .none, ⟨.tripped, (Vector.replicate 64 false).set 0 true⟩, ⟨.clear, Vector.replicate 64 false⟩⟩

/-- Whole writes of initiator 0, and a read. -/
def write (a : Addr) (d : Word) : WriteRequest := ⟨0, 1, a, 15#4, d⟩
def read (a : Addr) : ReadRequest := ⟨0, 2, a⟩

/-- A slot of a write at an uncovered word. -/
def slot (n : SlotNo) (p : Progress) : Slot :=
  ⟨n, 0, 3, .write, 0x300#26, 15#4, .one 7#32, .forward, none, p, 0, none, none, false⟩
/-- A queue with an ISSUED slot whose access is with memory, and a DECIDED slot behind it. -/
def busy : State :=
  { running with
    transit := ⟨[{ slot 0 .issued with awaited := 1 }, slot 1 .decided], false⟩
    msi := ⟨[], [0]⟩ }
/-- A full queue of answered slots. -/
def full : State := running.setSlots ((List.finRange 8).map fun n => { slot n .done with status := some .okay })

/-! ### Well-formedness -/

theorem test_tick_of_more_than_a_period_is_ill_formed :
    (Instr.tick 4097).wellFormed = false ∧ (Instr.tick 4096).wellFormed = true := by decide +kernel
theorem test_bad_command_of_a_known_code_is_ill_formed :
    (Instr.badCommand 0x13#8 0#8 0).wellFormed = false ∧ (Instr.badCommand 0x17#8 0#8 0).wellFormed = true := by
  decide +kernel
theorem test_arming_row_with_another_setting_is_ill_formed :
    (Instr.setArmingWindow 2#8 0).wellFormed = false ∧ (Instr.setArmingWindow 1#8 0).wellFormed = true := by
  decide +kernel
theorem test_poison_row_with_another_setting_is_ill_formed :
    (Instr.setPoisonWord 3#8 0).wellFormed = false ∧ (Instr.setPoisonWord 2#8 0).wellFormed = true := by
  decide +kernel
theorem test_alert_row_with_another_setting_is_ill_formed :
    (Instr.setAlertEnable 1#8 0).wellFormed = false ∧ (Instr.setAlertEnable 4#8 0).wellFormed = true := by
  decide +kernel

/-! ### One step of each command -/

/-- A clean write of 60 (R65). -/
theorem test_write_arrival_clean :
    ((after (exec (write 0x100#26 60#32).command running)).entry 0).lastGood = some (.word 60#32) ∧
    (after (exec (write 0x100#26 60#32).command running)).window 0 = ⟨.cycle, 10⟩ := by decide +kernel
/-- At the threshold with reaction LOCKDOWN the device locks (R66, R152). -/
theorem test_write_arrival_lockdown :
    (after (exec (write 0x100#26 200#32).command
      (with0 { nearly .lockdown with dwellCounter := 2 }))).esc.reason = .entry 0 := by decide +kernel
/-- A STALE entry with policy POISON answers 0xFFFFFFC0 for index 0 (R139, R143). -/
theorem test_read_arrival_poisoned :
    ((after (exec (read 0x100#26).command (with0 { live0 with state := .stale }))).transit.slots.map
      fun x => (x.disposition, x.answerData)) = [(.poisoned, some 0xFFFFFFC0#32)] := by decide +kernel
theorem test_slot_issue :
    (after (exec .slotIssue busy)).msi.stage = [⟨1, 0x300#26, .write 15#4 7#32⟩] := by decide +kernel
theorem test_memory_accept :
    (after (exec .memoryAccept { busy with msi := ⟨[⟨1, 0x300#26, .read⟩], [0]⟩ })).msi = ⟨[], [0, 1]⟩ := by
  decide +kernel
/-- A wrong tag makes the answer ERROR (R33). -/
theorem test_memory_answer_with_a_wrong_tag :
    ((after (exec (.memoryAnswer 5 .okay 0#32) busy)).transit.slots.map fun x => (x.progress, x.status)) =
      [(.done, some .error), (.decided, none)] := by decide +kernel
theorem test_response_taken : (after (exec .responseTaken full)).transit.slots.length = 7 := by decide +kernel
/-- A processor-side reset in SUPERVISE arms the entry again and marks the ISSUED slot (R24, R43). -/
theorem test_processor_side_reset :
    ((after (exec .processorSideReset busy)).entry 0).state = .armed ∧
    (after (exec .processorSideReset busy)).window 0 = ⟨.arming, 1000⟩ ∧
    ((after (exec .processorSideReset busy)).transit.slots.map fun x => x.discard) = [true] := by decide +kernel
theorem test_prst_release : (after (exec .prstNRelease (running.setPrst true))).pins.prst = false := by decide +kernel
theorem test_power_on_reset :
    after (exec .powerOnReset running) = State.reset.setPorst true := by decide +kernel
theorem test_porst_release : after (exec .porstNRelease (State.reset.setPorst true)) = State.reset := by decide +kernel
/-- 4,096 periods of REFCLK lower the count by one (R120, R122). -/
theorem test_tick : (after (exec (.tick 4096) running)).window 0 = ⟨.cycle, 4⟩ := by decide +kernel
theorem test_arming_expiry :
    ((after (exec (.armingExpiry 0)
      ((with0 { live0 with state := .armed }).setWindow 0 ⟨.arming, 0⟩))).entry 0).state = .stale := by decide +kernel
theorem test_closed_window_end :
    ((after (exec (.closedWindowEnd 0) (with0 { live0 with phase := .closed }))).entry 0).phase = .opened := by
  decide +kernel
theorem test_open_window_expiry :
    (after (exec (.openWindowExpiry 0) (running.setWindow 0 ⟨.cycle, 0⟩))).window 0 = ⟨.stalePeriod, 10⟩ := by
  decide +kernel
theorem test_stale_period_expiry_at_the_threshold :
    ((after (exec (.stalePeriodExpiry 0)
      ((with0 { nearly .note with state := .stale }).setWindow 0 ⟨.stalePeriod, 0⟩))).entry 0).state = .failed := by
  decide +kernel
theorem test_frame_start : (after (exec .frameStart running)).mlc.frameOpen = true := by decide +kernel
/-- A frame of three bits is BAD_FRAME with byte 0 reported as 0 (R179). -/
theorem test_bad_frame :
    (after (exec (.badFrame [true, false, true]) running)).mlc.reply = ⟨.badFrame, 0, 0⟩ := by decide +kernel
theorem test_bad_command :
    (after (exec (.badCommand 0x17#8 0 0) running)).mlc.reply = ⟨.badCommand, 0x17#8, 0⟩ := by decide +kernel
theorem test_nop : (after (exec (.nop 0 0) running)).mlc.reply = ⟨.done, 0, 0⟩ := by decide +kernel
/-- IDENTIFY's reply, byte by byte on the link: 00 01 4B 4F 08 64 01 40 08 00 (R183). -/
theorem test_identify :
    (after (exec (.identify 0 0) running)).mlc.reply.word.extractLsb' 8 80 = 0x00014B4F086401400800#80 := by
  decide +kernel
/-- After power-on: CONFIGURE, both groups LATCHED, alert enable set, ALERT_N deasserted (R183). -/
theorem test_device_status :
    (after (exec (.deviceStatus 0 0) State.reset)).mlc.reply.data = 0x0100000202000000#64 := by decide +kernel
theorem test_set_arming_window :
    (after (exec (.setArmingWindow 1#8 5) State.reset)).mlc.armingWindow = .ms5000 := by decide +kernel
theorem test_set_poison_word :
    (after (exec (.setPoisonWord 2#8 0x12345678) State.reset)).mlc.poison = 0x12345678#32 := by decide +kernel
theorem test_set_alert_enable :
    (after (exec (.setAlertEnable 3#8 0) running)).mlc.alertEnable = false := by decide +kernel
theorem test_draft_clear :
    (after (exec (.draftClear 0 0) (running.setDraft bounded))).mlc.draft = draftDefaults := by decide +kernel
theorem test_draft_set : (after (exec (.draftSet 0x16#8 7) State.reset)).mlc.draft.threshold = 7 := by decide +kernel
theorem test_draft_omit :
    (after (exec (.draftOmit 0x05#8 0) (State.reset.setDraft bounded))).mlc.draft.hardHigh = ⟨false, 100⟩ := by
  decide +kernel
theorem test_install :
    ((after (exec (.install 2#8 0) (State.reset.setDraft bounded))).entry 2).state = .defined := by decide +kernel
/-- A second entry at the same word is OVERLAP (R15). -/
theorem test_install_overlap :
    (after (exec (.install 2#8 0) (running.setDraft bounded))).mlc.reply.status = .overlap := by decide +kernel
theorem test_retire : (after (exec (.retire 0 0) running)).entry 0 = emptyEntry := by decide +kernel
/-- REARM of the only failed member latches its group (R159). -/
theorem test_rearm :
    (after (exec (.rearm 0 0) failed0)).esc.groupA = ⟨.latched, Vector.replicate 64 false⟩ := by decide +kernel
/-- Part 10 of a LIVE entry with a last good value (R189). -/
theorem test_read_entry :
    (after (exec (.readEntry 0 10) running)).mlc.reply.data = 0x0102000000000103#64 := by decide +kernel
theorem test_start : (after (exec (.start 0 0) State.reset)).esc.device = .supervise := by decide +kernel
theorem test_stop : ((after (exec (.stop 0 0) running)).entry 0).state = .defined := by decide +kernel
theorem test_stop_with_a_failed_entry :
    (after (exec (.stop 0 0) failed0)).mlc.reply.status = .failPresent := by decide +kernel
theorem test_lockdown : (after (exec (.lockdown 0 0) running)).esc.reason = .monitor := by decide +kernel
theorem test_release_group :
    (after (exec (.releaseGroup 1#8 0) State.reset)).esc.groupB.state = .clear := by decide +kernel
theorem test_force_group : (after (exec (.forceGroup 0 0) running)).esc.groupA.state = .latched := by decide +kernel
/-- `running` with FAILED latched at entry 0. -/
def latched0 : State := latchEvents 0 0x8000#16 0 0 none running
theorem test_collect : (after (exec (.collect 0 0) latched0)).events.attention = [] := by decide +kernel
theorem test_collect_entry :
    (after (exec (.collectEntry 0 0) latched0)).mlc.reply.data = 0x0000000300800000#64 := by decide +kernel
theorem test_collected_part :
    (after (exec (.collectedPart 0 0) (after (exec (.collect 0 0) latched0)))).mlc.reply.data =
      0x0000000380000001#64 := by decide +kernel
theorem test_soft_reset :
    (after (exec (.softReset 0 0) running)).mlc.startCause = .soft := by decide +kernel
theorem test_sck_rising : (after (exec (.sckRisingEdge true) (beginFrame running))).mlc.bitCount = 1 := by decide +kernel
/-- The second bit of the reply 05 … comes out after one falling edge (R177). -/
theorem test_sck_falling :
    (after (exec .sckFallingEdge (beginFrame (running.setReply ⟨.emptyList, 0, 0⟩)))).mlc.outReg =
      (Reply.word ⟨.emptyList, 0, 0⟩) <<< 1 := by decide +kernel

/-- The CRC that the manual works out (R178). -/
theorem test_crc_of_nine_digits :
    crc8 ("123456789".toList.flatMap fun c => bitsOf (BitVec.ofNat 8 c.toNat)) = 0xF4#8 := by decide +kernel

/-! ### The small states meet the laws -/

theorem entry_running : ∀ k, running.entry k = if k = 0 then live0 else if k = 1 then armed1 else emptyEntry := by
  decide +kernel
theorem window_running : ∀ k, running.window k = if k = 0 then ⟨.cycle, 5⟩ else stoppedWindow := by decide +kernel
theorem latch_running : ∀ k, running.latch k = clearedLatch := by decide +kernel
theorem entry_failed0 : ∀ k, failed0.entry k = if k = 0 then { live0 with state := .failed, faultCounter := 3 }
    else if k = 1 then armed1 else emptyEntry := by decide +kernel

theorem test_running_meets_the_range_and_counter_laws : RangeLaw running ∧ CounterLaw running := by
  refine ⟨⟨by unfold Definition.inRange; decide +kernel, fun k => ?_⟩, fun k => ?_⟩ <;>
    rw [entry_running] <;> split_ifs <;> (try unfold Definition.inRange) <;> decide +kernel
theorem test_running_meets_the_warn_law : WarnLaw running := by
  intro k; rw [entry_running]; split_ifs <;> decide +kernel
theorem test_running_meets_the_window_law : WindowLaw running := by
  intro k
  rw [entry_running, window_running]
  split_ifs
  · exact ⟨rfl, by decide, .inr (by decide)⟩
  · rfl
  · rfl
theorem covers_running {k : Index} {a : Addr} (h : (running.entry k).covers a = true) :
    (k = 0 ∧ a = 0x100#26) ∨ (k = 1 ∧ (a = 0x200#26 ∨ a = 0x201#26)) := by
  rw [entry_running] at h
  split_ifs at h with h0 h1
  · left; exact ⟨h0, by simpa [Entry.covers, Definition.covers, live0, bounded, draftDefaults] using h⟩
  · right; exact ⟨h1, by simpa [Entry.covers, Definition.covers, armed1, paired, draftDefaults] using h⟩
  · simp [Entry.covers, emptyEntry] at h
theorem test_running_meets_the_table_law : TableLaw running := by
  refine ⟨fun i j a hi hj => ?_, fun k => ?_⟩
  · rcases covers_running hi with ⟨rfl, rfl⟩ | ⟨rfl, rfl | rfl⟩ <;>
      rcases covers_running hj with ⟨rfl, h⟩ | ⟨rfl, h | h⟩ <;> first | rfl | exact absurd h (by decide)
  · rw [entry_running]
    by_cases h0 : k = 0
    · rw [if_pos h0]; decide +kernel
    · rw [if_neg h0]
      by_cases h1 : k = 1
      · rw [if_pos h1]; decide +kernel
      · rw [if_neg h1]; decide +kernel
theorem test_busy_meets_the_issue_law : IssueLaw busy := by
  intro x hx hd
  have h : x = { slot 0 .issued with awaited := 1 } ∨ x = slot 1 .decided := by simpa [busy] using hx
  rcases h with rfl | rfl
  · cases hd
  · refine ⟨by decide, fun a ha k hk => ?_⟩
    have e : a = ⟨1, 0x300#26, .write 15#4 7#32⟩ := by simpa [slot, Slot.accesses] using ha
    subst e
    rcases covers_running hk with ⟨_, h⟩ | ⟨_, h | h⟩ <;> exact absurd h (by decide)
/-- A half pending at entry 1. -/
def halfway : State := running.setEntry 1 { armed1 with pendingHalf := some ⟨.low, 0#32, 0⟩ }
theorem entry_halfway : ∀ k, halfway.entry k = if k = 0 then live0 else if k = 1 then
    { armed1 with pendingHalf := some ⟨.low, 0#32, 0⟩ } else emptyEntry := by decide +kernel
theorem test_halfway_meets_the_pending_law : PendingLaw halfway ∧ (halfway.entry 1).pendingHalf.isSome = true := by
  refine ⟨fun k p h => ?_, by decide +kernel⟩
  rw [entry_halfway] at h ⊢
  split_ifs at h ⊢ with h0 h1
  · cases h
  · cases h; exact ⟨rfl, .inl rfl, rfl, by decide⟩
  · cases h
theorem test_running_meets_the_last_good_law : LastGoodLaw running ∧ (running.entry 0).lastGood.isSome = true := by
  refine ⟨fun k v h => ?_, by decide +kernel⟩
  rw [entry_running] at h ⊢
  split_ifs at h ⊢ with h0 h1
  · cases h
    exact ⟨by simp [Value.fits, live0, bounded, draftDefaults], fun _ => by decide +kernel, fun c hc => by cases hc⟩
  · cases h
  · cases h
theorem test_running_meets_the_device_and_group_laws : DeviceLaw running ∧ GroupLaw running := by
  refine ⟨⟨by decide +kernel, by decide +kernel, by decide +kernel, fun k h => by cases h⟩, ?_, ?_, ?_, ?_⟩ <;>
    decide +kernel
theorem test_failed0_meets_the_group_law : GroupLaw failed0 := by
  refine ⟨?_, ?_, ?_, ?_⟩ <;> decide +kernel
theorem test_locked_meets_the_group_law : GroupLaw locked := by
  refine ⟨?_, ?_, ?_, ?_⟩ <;> decide +kernel
theorem test_latched0_meets_the_attention_law : AttentionLaw latched0 ∧ latched0.events.attention = [0] := by
  refine ⟨⟨?_, ?_, ?_, ?_⟩, ?_⟩ <;> decide +kernel
theorem test_busy_meets_the_queue_law : QueueLaw busy := by
  refine ⟨by decide +kernel, by decide +kernel, fun x hx => ?_, by decide +kernel, by decide +kernel⟩
  have h : x = { slot 0 .issued with awaited := 1 } ∨ x = slot 1 .decided := by simpa [busy] using hx
  rcases h with rfl | rfl
  · exact ⟨by decide +kernel, rfl, by decide, by decide, by decide⟩
  · exact ⟨by decide +kernel, rfl, by decide, by decide, by decide⟩
/-- A slot that drains, with two answers awaited. -/
def drainingTwo : State :=
  { running with transit := ⟨[{ slot 0 .issued with awaited := 2, discard := true }], true⟩, msi := ⟨[], [0, 0]⟩ }
/-- The same with one. -/
def drainingOne : State :=
  { running with transit := ⟨[{ slot 0 .issued with awaited := 1, discard := true }], true⟩, msi := ⟨[], [0]⟩ }
theorem test_draining_states_meet_the_queue_law : QueueLaw drainingTwo ∧ QueueLaw drainingOne := by
  refine ⟨⟨by decide +kernel, by decide +kernel, fun x hx => ?_, by decide +kernel, by decide +kernel⟩,
    ⟨by decide +kernel, by decide +kernel, fun x hx => ?_, by decide +kernel, by decide +kernel⟩⟩
  · have h : x = { slot 0 .issued with awaited := 2, discard := true } := by simpa [drainingTwo] using hx
    subst h; exact ⟨by decide +kernel, rfl, by decide, by decide, by decide⟩
  · have h : x = { slot 0 .issued with awaited := 1, discard := true } := by simpa [drainingOne] using hx
    subst h; exact ⟨by decide +kernel, rfl, by decide, by decide, by decide⟩
theorem test_porst_law_has_a_state : PorstLaw (State.reset.setPorst true) ∧ (State.reset.setPorst true).pins.porst = true :=
  ⟨fun _ => by decide +kernel, rfl⟩
/-- The premise `step s = next t` of the statements on every step. -/
theorem test_a_step_answers_next : ∃ t, step running = .next t := ⟨_, rfl⟩

/-! ### What the hypotheses of the statements ask for exists -/

theorem test_witness_queue :
    ({ running with pending := [.slotIssue] } : State).pending = .slotIssue :: [] ∧ running.pending = [] ∧
    running.pins.offered = none ∧ (running.setOffered (some (.read (read 0#26)))).canAccept = true ∧
    (full.setOffered (some (.read (read 0#26)))).canAccept = false := by decide +kernel
/-- `busy` with BCLK stopped and a request held offered. -/
def halted : State :=
  { busy with pins := { busy.pins with bclkStopped := true, offered := some (.read (read 0#26)) } }
theorem test_bus_sides_stand_while_bclk_is_stopped :
    halted.canAccept = false ∧ halted.memoryOffer = none ∧ after (step halted) = halted ∧
    after (exec .slotIssue halted) = halted ∧ after (exec (.memoryAnswer 0 .okay 0#32) halted) = halted ∧
    after (exec .slotIssue busy) ≠ busy ∧ after (exec (.memoryAnswer 0 .okay 0#32) busy) ≠ busy := by decide +kernel
theorem test_witness_processor_side_reset :
    (running.setPrst true).pins.prst = true ∧ running.pins.prst = false ∧ running.esc.device = .supervise ∧
    State.reset.esc.device ≠ .supervise ∧ (running.entry 0).state = .live ∧ (running.entry 2).state = .empty := by
  decide +kernel
theorem test_witness_link_ready : running.linkReady ∧ State.reset.linkReady ∧ locked.linkReady ∧ failed0.linkReady := by
  refine ⟨⟨?_, ?_⟩, ⟨?_, ?_⟩, ⟨?_, ?_⟩, ?_, ?_⟩ <;> decide +kernel
theorem test_witness_acceptance :
    running.canAccept = true ∧ full.canAccept = false ∧ State.reset.canAccept = true ∧
    (running.setSlots (full.transit.slots.take 7)).transit.slots.length < 8 ∧
    full.pins.offered = none ∧ (full.setOffered (some (.read (read 0#26)))).pins.offered = some (.read (read 0#26)) ∧
    (Offer.read (read 0#26)) ≠ .write (write 0#26 0#32) := by decide +kernel
/-- `running` with a read held offered that can be accepted. -/
def offering : State := running.setOffered (some (.read (read 0#26)))
theorem test_the_held_request_is_accepted_first :
    offering.canAccept = true ∧ offering.pins.offered = some (.read (read 0#26)) ∧
    after (exec (write 0#26 9#32).command offering) =
      after (exec (write 0#26 9#32).command (after (exec (read 0#26).command offering))) ∧
    (after (exec (write 0#26 9#32).command offering)).transit.slots.length = 2 := by decide +kernel
theorem takes_of {s : State} {o : Offer} (h : s.canAccept = true) (hn : s.pins.offered = none) : s.takes o :=
  ⟨h, .inl hn⟩
theorem test_witness_uninspected_writes :
    State.reset.takes (.write (write 0#26 1#32)) ∧ State.reset.esc.device = .configure ∧
    running.takes (.write (write 0x300#26 1#32)) ∧ running.lookup 0x300#26 = none ∧
    locked.takes (.write (write 0x201#26 1#32)) ∧ locked.lookup 0x201#26 = some 1 ∧ locked.esc.device = .lockdown ∧
    failed0.takes (.write (write 0x100#26 1#32)) ∧ failed0.lookup 0x100#26 = some 0 ∧
    (failed0.entry 0).state = .failed := by
  refine ⟨takes_of ?_ ?_, ?_, takes_of ?_ ?_, ?_, takes_of ?_ ?_, ?_, ?_, takes_of ?_ ?_, ?_, ?_⟩ <;> decide +kernel
theorem test_witness_reads :
    State.reset.takes (.read (read 0#26)) ∧ running.takes (.read (read 0x300#26)) ∧ running.lookup 0x300#26 = none ∧
    failed0.takes (.read (read 0x100#26)) ∧ failed0.lookup 0x100#26 = some 0 ∧
    (with0 { live0 with state := .stale }).takes (.read (read 0x100#26)) ∧
    locked.takes (.read (read 0x201#26)) ∧ locked.lookup 0x201#26 = some 1 := by
  refine ⟨takes_of ?_ ?_, takes_of ?_ ?_, ?_, takes_of ?_ ?_, ?_, takes_of ?_ ?_, takes_of ?_ ?_, ?_⟩ <;> decide +kernel
theorem test_witness_pairing :
    armed1.defn.format = .real64 ∧ (write 0x200#26 1#32).lanes = 15#4 ∧ armed1.defn.allowsWriter 0 = true ∧
    armed1.defn.allowsWriter 3 = true ∧ armed1.pendingHalf = none ∧ armed1.defn.halfOf 0x200#26 = .low ∧
    armed1.defn.halfOf 0x201#26 = .high ∧
    (halfway.entry 1).pendingHalf = some ⟨.low, 0#32, (write 0x200#26 1#32).initiator⟩ ∧ (0 : Initiator) ≠ 3 := by
  decide +kernel
theorem test_witness_pairing_not_reached :
    live0.defn.format ≠ .real64 ∧ (⟨0, 0, 0x200#26, 14#4, 0#32⟩ : WriteRequest).lanes ≠ 15#4 ∧
    ({ paired with writers := 14#4 }).allowsWriter 0 = false := by decide +kernel
theorem inspects_of {s : State} {r : WriteRequest} {k : Index} (hc : s.canAccept = true) (ho : s.pins.offered = none)
    (hd : s.esc.device = .supervise) (hl : s.lookup r.addr = some k) (hs : (s.entry k).state.supervised = true) :
    s.inspects r k :=
  ⟨takes_of hc ho, hd, hl, by
    revert hs; generalize (s.entry k).state = x
    cases x <;> simp [EntryState.supervised]⟩
theorem test_witness_first_half :
    running.inspects (write 0x200#26 1#32) 1 ∧ (running.entry 1).state ≠ .failed ∧ (running.entry 1).pendingHalf = none ∧
    halfway.inspects (write 0x200#26 1#32) 1 ∧
    (halfway.entry 1).pendingHalf = some ⟨(halfway.entry 1).defn.halfOf 0x200#26, 0#32, 0⟩ := by
  refine ⟨inspects_of ?_ ?_ ?_ ?_ ?_, ?_, ?_, inspects_of ?_ ?_ ?_ ?_ ?_, ?_⟩ <;> decide +kernel
theorem test_witness_fault_kinds :
    live0.state ≠ .failed ∧ (∀ p, pairingStage live0 (write 0x100#26 60#32) ≠ .held p) ∧
    (inspect live0 (write 0x100#26 60#32)).faults = 0 ∧ (inspect live0 ⟨0, 0, 0x100#26, 1#4, 0#32⟩).faults ≠ 0 := by
  refine ⟨by decide, fun p h => ?_, by decide +kernel, by decide +kernel⟩
  rw [show pairingStage live0 (write 0x100#26 60#32) = .notReached by decide +kernel] at h; cases h
/-- `halfway` written by initiator 0, and by initiator 3, at each half: every pairing outcome but HELD and not reached. -/
theorem test_witness_pairing_outcomes :
    pairingStage (halfway.entry 1) (write 0x201#26 1#32) = .complete 0#32 1#32 ∧
    pairingStage (halfway.entry 1) ⟨3, 0, 0x200#26, 15#4, 1#32⟩ = .tornSame ∧
    pairingStage (halfway.entry 1) ⟨3, 0, 0x201#26, 15#4, 1#32⟩ = .tornOther 0#32 1#32 ∧
    pairingStage (halfway.entry 1) ⟨0, 0, 0x201#26, 14#4, 1#32⟩ = .notReached ∧
    (halfway.entry 1).defn.format = .real64 := by decide +kernel
theorem test_witness_clean :
    running.inspects (write 0x100#26 60#32) 0 ∧
    (inspect (running.entry 0) (write 0x100#26 60#32)).classification = .clean ∧
    checkedValue (running.entry 0) (write 0x100#26 60#32) (pairingStage (running.entry 0) (write 0x100#26 60#32)) =
      some (.word 60#32) ∧
    halfway.inspects (write 0x201#26 1#32) 1 ∧
    (inspect (halfway.entry 1) (write 0x201#26 1#32)).classification = .clean ∧
    checkedValue (halfway.entry 1) (write 0x201#26 1#32) (pairingStage (halfway.entry 1) (write 0x201#26 1#32)) =
      some (.pair 0#32 1#32) := by
  refine ⟨inspects_of ?_ ?_ ?_ ?_ ?_, ?_, ?_, inspects_of ?_ ?_ ?_ ?_ ?_, ?_, ?_⟩ <;> decide +kernel
theorem test_witness_suspect :
    running.inspects (write 0x100#26 101#32) 0 ∧
    (inspect (running.entry 0) (write 0x100#26 101#32)).classification = .suspect ∧
    checkedValue (running.entry 0) (write 0x100#26 101#32) (pairingStage (running.entry 0) (write 0x100#26 101#32)) =
      some (.word 101#32) := by
  refine ⟨inspects_of ?_ ?_ ?_ ?_ ?_, ?_, ?_⟩ <;> decide +kernel
theorem test_witness_faulted :
    running.inspects ⟨0, 0, 0x100#26, 1#4, 0#32⟩ 0 ∧
    (inspect (running.entry 0) ⟨0, 0, 0x100#26, 1#4, 0#32⟩).classification = .faulted ∧
    (running.entry 0).faultCounter + 1 ≠ (running.entry 0).defn.threshold := by
  refine ⟨inspects_of ?_ ?_ ?_ ?_ ?_, ?_, ?_⟩ <;> decide +kernel
/-- `running` with entry 1 HOLD and the pair 1, 2 as its last good value. -/
def holding : State :=
  running.setEntry 1 { armed1 with defn := { paired with violation := .hold }, lastGood := some (.pair 1#32 2#32) }
/-- `holding` with a low half of initiator 1 pending. -/
def holdingHalf : State := holding.setEntry 1 { holding.entry 1 with pendingHalf := some ⟨.low, 5#32, 1⟩ }
theorem test_witness_substituted_halves :
    (holding.entry 1).defn.violation = .hold ∧ (holding.entry 1).defn.format = .real64 ∧
    (holding.entry 1).lastGood = some (.pair 1#32 2#32) ∧
    wordsReceived ⟨0, 0, 0x200#26, 1#4, 7#32⟩ (pairingStage (holding.entry 1) ⟨0, 0, 0x200#26, 1#4, 7#32⟩) = .word 7#32 ∧
    (after (exec (.writeArrival 0 0 0x200#26 1#4 7#32) holding)).transit.slots.map (·.data) = [.one 1#32] ∧
    (after (exec (.writeArrival 0 0 0x201#26 1#4 7#32) holding)).transit.slots.map (·.data) = [.one 2#32] ∧
    wordsReceived (write 0x201#26 7#32) (pairingStage (holdingHalf.entry 1) (write 0x201#26 7#32)) = .pair 5#32 7#32 ∧
    (after (exec (write 0x201#26 7#32).command holdingHalf)).transit.slots.map (·.data) = [.two 1#32 2#32] := by
  decide +kernel
theorem test_witness_threshold :
    ∀ r ∈ [Reaction.note, .groupA, .groupB, .groupAB, .lockdown],
      (with0 (nearly r)).inspects ⟨0, 0, 0x100#26, 1#4, 0#32⟩ 0 ∧
      (inspect ((with0 (nearly r)).entry 0) ⟨0, 0, 0x100#26, 1#4, 0#32⟩).classification = .faulted ∧
      ((with0 (nearly r)).entry 0).faultCounter + 1 = ((with0 (nearly r)).entry 0).defn.threshold ∧
      ((with0 (nearly r)).entry 0).defn.reaction = r := by
  intro r hr
  simp only [List.mem_cons, List.not_mem_nil, or_false] at hr
  rcases hr with rfl | rfl | rfl | rfl | rfl <;> refine ⟨inspects_of ?_ ?_ ?_ ?_ ?_, ?_, ?_, ?_⟩ <;> decide +kernel
theorem test_witness_values :
    exponent32 0x007FFFFF#32 = 0 ∧ exponent32 0x00800000#32 = 1 ∧ exponent32 0x7F7FFFFF#32 = 254 ∧
    exponent32 0x7F800000#32 = 255 ∧ exponent64 0x000FFFFFFFFFFFFF#64 = 0 ∧ exponent64 0x0010000000000000#64 = 1 ∧
    exponent64 0x7FEFFFFFFFFFFFFF#64 = 2046 ∧ exponent64 0x7FF0000000000000#64 = 2047 ∧ 1 ≤ bounded.dwell ∧ bounded.dwell = 2 ∧
    (Machine.Num.fin 101) ≠ .nan ∧ bounded.hardHigh.number bounded.format = some (.fin 100) ∧
    Machine.Num.below (.fin 100) (.fin 101) = true ∧ Machine.Num.below (.fin 100) (.fin 100) = false := by decide +kernel
/-- Encodings worked out from R75 and R76: one, the least subnormals, minus infinity and NaNs. -/
theorem test_real_encodings :
    readValue .real32 (.word 0x3F800000#32) = .fin (2 ^ 1074) ∧ readValue .real32 (.word 1#32) = .fin (2 ^ 925) ∧
    readValue .real64 (.pair 0#32 0x3FF00000#32) = .fin (2 ^ 1074) ∧ readValue .real64 (.pair 1#32 0#32) = .fin 1 ∧
    readValue .real32 (.word 0xFF800000#32) = .negInf ∧ readValue .real32 (.word 0x7FC00000#32) = .nan ∧
    readValue .real64 (.pair 0#32 0x7FF00000#32) = .posInf ∧ readValue .real64 (.pair 1#32 0x7FF00000#32) = .nan := by
  decide +kernel
/-- Warn high 90 with hysteresis 20: 70 lies in the return band, 71 in the hysteresis zone (R95). -/
theorem test_return_band :
    (warnStage { bounded with hysteresis := 20 } .outside false (.fin 70)).condition = .inside ∧
    (warnStage { bounded with hysteresis := 20 } .outside false (.fin 71)).condition = .outside := by decide +kernel
theorem test_witness_warning :
    (Machine.Num.fin 91) ≠ .nan ∧
    outsideBand (bounded.warnLow.number bounded.format) (bounded.warnHigh.number bounded.format) (.fin 91) = true ∧
    outsideBand (bounded.warnLow.number bounded.format) (bounded.warnHigh.number bounded.format) (.fin 90) = false ∧
    bounded.alarmMode = .edge ∧ ({ bounded with alarmMode := .level }).alarmMode = .level ∧
    ({ bounded with alarmMode := .single }).alarmMode = .single := by decide +kernel
theorem test_witness_poison :
    ({ bounded with format := .real32 }).format = .real32 ∧ paired.format = .real64 ∧
    (0x200#26 : Addr) = paired.base ∧ (0x201#26 : Addr) = paired.base + 1 ∧ bounded.format = .unsigned := by
  decide +kernel
theorem test_witness_issue :
    busy.msi.stage = [] ∧
    busy.transit.slots = [{ slot 0 .issued with awaited := 1 }] ++ slot 1 .decided :: [] ∧
    (∀ y ∈ [{ slot 0 .issued with awaited := 1 }], y.progress ≠ .decided) ∧
    ({ busy with msi := ⟨[⟨0, 0x300#26, .read⟩], []⟩ } : State).msi.stage = ⟨0, 0x300#26, .read⟩ :: [] ∧
    (∀ y ∈ full.transit.slots, y.progress ≠ .decided) ∧
    ({ slot 0 .decided with kind := .read, data := .none }).data = .none ∧
    ({ slot 0 .decided with disposition := .substitute }).disposition = .substitute ∧
    ({ slot 0 .decided with addr := 0x201#26, data := .two 1#32 2#32 }).addr = (0x200#26 : Addr) + 1 ∧
    (0x200#26 : Addr).getLsbD 0 = false := by decide +kernel
theorem test_witness_memory_answer :
    running.msi.outstanding = [] ∧ busy.msi.outstanding = 0 :: [] ∧
    busy.transit.slots = [] ++ { slot 0 .issued with awaited := 1 } :: [slot 1 .decided] ∧
    drainingTwo.msi.outstanding = 0 :: [0] ∧ drainingTwo.transit.draining = true ∧
    drainingOne.msi.outstanding = 0 :: [] := by decide +kernel
theorem test_witness_response :
    full.transit.slots.head? = some { slot 0 .done with status := some .okay } ∧
    (∀ x ∈ busy.transit.slots.head?, x.progress ≠ .done) := by decide +kernel
theorem test_witness_conversions :
    (slot 0 .decided).progress = .decided ∧ live0.covers 0x100#26 = true ∧ live0.covers 0x300#26 = false ∧
    running.lookup 0x201#26 = some 1 ∧ running.lookup 0x300#26 = none ∧ live0.defn.readPolicy = .poison ∧
    ({ bounded with readPolicy := .pass }).readPolicy = .pass ∧
    ({ bounded with readPolicy := .poisonError }).readPolicy = .poisonError := by decide +kernel
/-- A slot of two words at 0x101, whose REAL64 entry is gone, and the entry that covers 0x100 now. -/
def torn : Slot := { slot 0 .decided with addr := 0x101#26, data := .two 1#32 2#32, disposition := .pairWrite }
theorem test_conversions_reach_the_other_word_of_a_pair :
    running.lookup torn.addr = none ∧ (∃ a ∈ torn.accesses, running.lookup a.addr = some 0) ∧
    convertForFailure 0 live0 0#32 torn = torn.toDropped 0 bounded ∧
    convertForLockdown running torn = torn.toDropped 0 bounded := by decide +kernel
/-- The divider one period before a tick. -/
def beforeTick : State := { running with timer := { running.timer with divider := 4095 } }
theorem test_witness_tick :
    (State.reset.setPorst true).pins.porst = true ∧ running.timer.divider + 4095 < 4096 ∧
    State.reset.esc.device ≠ .supervise ∧ beforeTick.timer.divider + 1 = 4096 ∧
    beforeTick.timer.divider + 4096 < 8192 ∧
    ∀ k, beforeTick.armingDue k = false ∧ beforeTick.closedEndDue k = false ∧ beforeTick.openDue k = false ∧
      beforeTick.staleDue k = false := by decide +kernel
/-- `beforeTick` with the open window of entry 0 expired and the expiry not yet taken. -/
def dueTick : State := beforeTick.setWindow 0 ⟨.cycle, 0⟩
theorem test_tick_takes_the_expiry_still_due_first :
    dueTick.pins.porst = false ∧ dueTick.esc.device = .supervise ∧ dueTick.timer.divider + 1 = 4096 ∧
    dueTick.openDue 0 = true ∧ ((after (exec (.tick 1) dueTick)).entry 0).state = .stale ∧
    (after (exec (.tick 1) dueTick)).window 0 = ⟨.stalePeriod, 9⟩ := by decide +kernel
theorem test_witness_expiry :
    expiryRow ((with0 { live0 with state := .armed }).setWindow 0 ⟨.arming, 0⟩) 0 (.armingExpiry 0) ∧
    expiryRow (running.setWindow 0 ⟨.cycle, 0⟩) 0 (.openWindowExpiry 0) ∧
    expiryRow ((with0 { nearly .note with state := .stale }).setWindow 0 ⟨.stalePeriod, 0⟩) 0 (.stalePeriodExpiry 0) ∧
    expiryRow ((with0 (nearly .lockdown)).setWindow 0 ⟨.cycle, 0⟩) 0 (.openWindowExpiry 0) ∧
    (nearly .lockdown).faultCounter + 1 = (nearly .lockdown).defn.threshold ∧
    live0.faultCounter + 1 ≠ live0.defn.threshold := by
  refine ⟨.inl ⟨rfl, ?_⟩, .inr (.inl ⟨rfl, ?_⟩), .inr (.inr ⟨rfl, ?_⟩), .inr (.inl ⟨rfl, ?_⟩), ?_, ?_⟩ <;> decide +kernel
theorem test_witness_closed_window :
    (with0 { live0 with phase := .closed }).esc.device = .supervise ∧
    ((with0 { live0 with phase := .closed }).entry 0).phase = .closed ∧ bounded.closedMs = 5 ∧
    (with0 { live0 with phase := .closed }).window 0 = ⟨.cycle, bounded.periodMs - bounded.closedMs⟩ ∧
    running.closedEndDue 0 = false ∧ running.armingDue 0 = false ∧ running.openDue 0 = false ∧
    running.staleDue 0 = false ∧ bounded.period ≠ .none := by decide +kernel
theorem test_witness_signalling :
    running.pins.csLow = false ∧ running.pins.porst = false ∧ (State.reset.setPorst true).pins.porst = true ∧
    (beginFrame running).pins.csLow = true ∧ (beginFrame running).mlc.frameOpen = true ∧
    (beginFrame running).mlc.bitCount < 88 ∧ (beginFrame (State.reset.setPorst true)).mlc.frameOpen = false ∧
    (beginFrame (State.reset.setPorst true)).pins.csLow = true := by decide +kernel
theorem test_witness_bad_frame :
    (List.replicate 87 true).length ≠ 88 ∧ (List.replicate 89 true).length ≠ 88 ∧
    byteOf ((List.replicate 88 true).drop 80) ≠ crc8 ((List.replicate 88 true).take 80) ∧
    (beginFrame running).mlc.frameGood = false ∧
    (beginFrame (State.reset.setPorst true)).mlc.frameOpen = false := by decide +kernel
theorem test_witness_link_frames :
    linkFrame (.install 3#8 0) = some (0x13#8, 3#8, 0) ∧ (Instr.install 3#8 0).wellFormed = true ∧
    linkFrame (.badCommand 0x17#8 3#8 0) = some (0x17#8, 3#8, 0) ∧ (Instr.badCommand 0x17#8 3#8 0).wellFormed = true ∧
    0x13#8 ∈ commandCodes ∧ 0x17#8 ∉ commandCodes ∧ admits 0x13#8 3#8 locked.esc.device = false ∧
    admits 0x13#8 64#8 running.esc.device = true ∧ admits 0x23#8 2#8 running.esc.device = true ∧
    (64#8).toNat = 64 ∧ (13#64).toNat = 13 := by decide +kernel
theorem test_witness_status_view : (running.setAttention indices).events.attention.length = 64 := by decide +kernel
theorem test_witness_settings :
    5 < (6#64).toNat ∧ running.esc.device ≠ .configure ∧ running.linkReady ∧ State.reset.linkReady ∧
    (4294967295#64).toNat ≤ 4294967295 ∧
    4294967295 < (4294967296#64).toNat ∧ 1 < (2#64).toNat ∧ 3 < (4#8).toNat ∧
    State.reset.esc.device = .configure := by unfold State.linkReady; decide +kernel
theorem test_witness_draft :
    (0x0C#8, 1, 65535) ∈ fieldRanges ∧ 1 ≤ (65535#64).toNat ∧ (65535#64).toNat ≤ 65535 ∧
    (¬ ∃ p ∈ fieldRanges, p.1 = 0x0C#8 ∧ p.2.1 ≤ (65536#64).toNat ∧ (65536#64).toNat ≤ p.2.2) ∧
    (¬ ∃ p ∈ fieldRanges, p.1 = 0x19#8) ∧ bounded.format = .unsigned ∧
    ({ bounded with format := .signed }).format = .signed := by decide +kernel
/-- REAL64 drafts: a band of infinite sides is consistent, a NaN limit, a hysteresis without number or below zero and an odd
base are not; a SEQUENCE draft is consistent with any of these (R3, R14). -/
theorem test_draft_consistency_of_real_formats :
    let band : Definition :=
      { paired with warnLow := ⟨true, 0xFFF0000000000000#64⟩, warnHigh := ⟨true, 0x7FF0000000000000#64⟩,
                    hysteresis := 0x3FF0000000000000#64 }
    band.consistent = true ∧ ({ band with hardLow := ⟨true, 0x7FF8000000000000#64⟩ }).consistent = false ∧
    ({ band with hysteresis := 0x7FF0000000000000#64 }).consistent = false ∧
    ({ band with hysteresis := 0xBFF0000000000000#64 }).consistent = false ∧
    ({ band with hysteresis := 0x8000000000000000#64 }).consistent = true ∧
    ({ band with base := 0x201#26 }).consistent = false ∧
    ({ band with base := 0x201#26, format := .real32 }).consistent = true ∧
    ({ band with format := .sequence, hysteresis := 0xBFF0000000000000#64 }).consistent = true := by decide +kernel
/-- CONFIGURE with entry 0 DEFINED. -/
def defined0 : State := State.reset.setEntry 0 (freshEntry bounded .defined)
theorem entry_defined0 : ∀ k, defined0.entry k = if k = 0 then freshEntry bounded .defined else emptyEntry := by
  decide +kernel
theorem test_defined0_meets_the_device_and_group_laws : DeviceLaw defined0 ∧ GroupLaw defined0 := by
  refine ⟨⟨by decide +kernel, by decide +kernel, by decide +kernel, fun k h => by cases h⟩, ?_, ?_, ?_, ?_⟩ <;>
    decide +kernel
theorem test_witness_install :
    (1#8).toNat = (1 : Index).val ∧ defined0.esc.device ≠ .lockdown ∧ (defined0.entry 0).state ≠ .empty ∧
    (defined0.entry 1).state = .empty ∧ ({ bounded with hardLow := ⟨true, 101⟩ }).consistent = false ∧
    bounded.consistent = true ∧ (∃ j a, (defined0.entry j).covers a = true ∧ bounded.covers a = true) ∧
    ¬ ∃ j a, (defined0.entry j).covers a = true ∧ paired.covers a = true := by
  refine ⟨by decide, by decide +kernel, by decide +kernel, by decide +kernel, by decide +kernel, by decide +kernel,
    ⟨0, 0x100#26, by decide +kernel⟩, ?_⟩
  rintro ⟨j, a, h1, h2⟩
  rw [entry_defined0] at h1
  split_ifs at h1
  · have ha : a = 0x100#26 := by
      simpa [Entry.covers, Definition.covers, freshEntry, bounded, draftDefaults] using h1
    subst ha; exact absurd h2 (by decide +kernel)
  · simp [Entry.covers, emptyEntry] at h1
theorem test_witness_table_commands :
    (running.entry 63).state = .empty ∧ (failed0.entry 0).state = .failed ∧ (running.entry 0).state = .live ∧
    running.esc.device = .supervise ∧ (63#8).toNat = (63 : Index).val ∧
    (running.setEntry 0 (freshEntry bounded .defined)).esc.device = .supervise ∧
    failed0.esc.groupA.state = .tripped ∧ (∀ j : Index, j ≠ 0 → failed0.esc.groupA.failed[j] = false) ∧
    defined0.esc.device = .configure ∧ (defined0.entry 0).state = .defined ∧
    (∀ k, (running.entry k).state ≠ .failed) := by decide +kernel
theorem test_witness_groups :
    State.reset.esc.groupA.state = .latched ∧ failed0.esc.groupA.state = .tripped ∧
    running.esc.groupA.state = .clear ∧ running.esc.groupB.state = .clear ∧ State.reset.esc.groupB.state = .latched ∧
    locked.esc.groupB.state = .tripped ∧ locked.esc.device = .lockdown ∧ 1 < (2#8).toNat ∧
    (failed0.entry 0).defn.reaction.inGroupA = true ∧ Reaction.inGroupB .groupB = true := by decide +kernel
theorem test_witness_lockdown_stays :
    locked.esc.device = .lockdown ∧ locked.esc.groupA.state = .tripped ∧
    (∀ sel arg, Instr.tick 4096 ≠ .softReset sel arg) ∧ Instr.tick 4096 ≠ .powerOnReset ∧
    ∃ t, exec (.tick 4096) locked = .next t := by
  refine ⟨by decide +kernel, by decide +kernel, ?_, by decide, _, rfl⟩
  intro _ _ h; cases h
/-- `locked` with a request held offered that can be accepted. -/
def lockedOffering : State := locked.setOffered (some (.write (write 0x100#26 1#32)))
theorem test_witness_lockdown_stays_over_steps :
    lockedOffering.esc.device = .lockdown ∧ lockedOffering.esc.groupA.state = .tripped ∧
    lockedOffering.esc.groupB.state = .tripped ∧ lockedOffering.pending = [] ∧ lockedOffering.canAccept = true ∧
    (after (step lockedOffering)).transit.slots.length = 1 ∧ (after (step lockedOffering)).entries = locked.entries ∧
    ({ locked with pending := [.tick 4096] } : State).pending = .tick 4096 :: [] := by decide +kernel
/-- A Collection Buffer with a capture of one word, and of a pair. -/
def collectedWord : State :=
  { running with mlc := { running.mlc with
      buffer := some ⟨0, 0x0008#16, some ⟨.word 1#32, some .low, 3, 0x0008#16, some .nan⟩, 0, 0, .live, 7⟩ } }
theorem test_witness_collection :
    running.events.attention = [] ∧ latched0.events.attention = 0 :: [] ∧ (running.latch 0).latched = 0 ∧
    (latched0.latch 0).latched ≠ 0 ∧ running.mlc.buffer = none ∧ collectedWord.mlc.buffer.isSome = true ∧
    (3#8).toNat ≤ 3 := by decide +kernel

end Sys2Proof.Tests
end

/-! PROOF. The laws of single entries: ranges, fault counters, warn state and last good values (R2, R9, R65, R72, R84,
R98 to R100). -/
namespace Sys2Proof.Machine

/-! ### What an inspected write makes of its entry -/

/-- A write leaves the entry that its inspection answers, but for the phase. -/
theorem entryAfterWrite_eq_next (e : Entry) (r : WriteRequest) :
    ∃ ph, entryAfterWrite e r = { (inspect e r).next with phase := ph } := by
  unfold entryAfterWrite
  dsimp only
  split
  · exact ⟨_, rfl⟩
  · exact ⟨_, rfl⟩

/-- A kind is among a set exactly when its condition holds. -/
theorem kindIf_eq_zero {c : Bool} {k : EventKind} : kindIf c k = 0#16 ↔ c = false := by
  cases c
  · exact iff_of_true rfl rfl
  · cases k <;> decide

/-- A faultless write that the pairing stage does not hold has a checked value (R56). -/
theorem checkedValue_of_faultless {e : Entry} {r : WriteRequest} (hp : ∀ p, pairingStage e r ≠ .held p) {f : Findings}
    (h : writeFaults e r (pairingStage e r) f = 0) : ∃ v, checkedValue e r (pairingStage e r) = some v := by
  simp only [writeFaults, BitVec.ofNat_eq_ofNat, BitVec.or_eq_zero_iff, kindIf_eq_zero] at h
  obtain ⟨⟨⟨⟨hpart, hforeign⟩, ht⟩, -⟩, -⟩ := h
  cases hq : pairingStage e r with
  | notReached =>
    have hf : e.defn.format ≠ .real64 := fun hf => pairingStage_eq_notReached.mp hq ⟨hf, hpart, hforeign⟩
    exact ⟨.word r.data, by simp [checkedValue, hf, hpart]⟩
  | held p => exact absurd hq (hp p)
  | complete lo hi => exact ⟨.pair lo hi, rfl⟩
  | tornSame => rw [hq] at ht; cases ht
  | tornOther lo hi => rw [hq] at ht; cases ht

/-- What a write keeps, by what the inspection does to the entry: the phase alone, a pending half, a fault, a suspect
value, or a clean value, which is then the last good one. -/
theorem entryAfterWrite_keeps {Q : Entry → Prop} {e : Entry} {r : WriteRequest} (he : Q e)
    (phase : ∀ (x : Entry) (ph : Phase), Q x → Q { x with phase := ph })
    (held : ∀ p, e.state ≠ .failed → Q { e with pendingHalf := p })
    (faulted : ∀ c p, e.state ≠ .failed → Q { e.withFindings (findings e c) p with
      faultCounter := e.faultCounter + 1
      state := if e.faultCounter + 1 = e.defn.threshold then .failed else e.state })
    (suspect : ∀ c p, e.state ≠ .failed → Q (e.withFindings (findings e c) p))
    (clean : ∀ v p, e.state ≠ .failed → checkedValue e r (pairingStage e r) = some v →
      (findings e (some v)).faults = 0 → (findings e (some v)).band ≠ .suspect →
      Q { e.withFindings (findings e (some v)) p with
        state := .live, faultCounter := 0, dwellCounter := 0, lastGood := some v }) :
    Q (entryAfterWrite e r) := by
  obtain ⟨ph, hph⟩ := entryAfterWrite_eq_next e r
  rw [hph]
  refine phase _ ph ?_
  rcases inspect_cases e r with ⟨-, hi⟩ | ⟨hs, p, -, hi⟩ | ⟨hs, hp, hi⟩
  · rw [hi]; exact he
  · rw [hi]; exact held _ hs
  · rcases judge_cases e r (pairingStage e r) with ⟨-, hj⟩ | ⟨-, -, hj⟩ | ⟨hf, hb, hj⟩
    · rw [hi, hj]
      simpa [faultedWrite] using faulted (checkedValue e r (pairingStage e r)) _ hs
    · rw [hi, hj]; exact suspect _ _ hs
    · obtain ⟨v, hv⟩ := checkedValue_of_faultless hp hf
      rw [hi, hj, hv]
      rw [hv] at hf hb
      exact clean v _ hs hv (BitVec.or_eq_zero_iff.mp hf).2 hb

/-! ### Ranges and fault counters (R2, R9) -/

/-- The static fields of an entry are in range, and its fault counter is below the threshold, or at it when FAILED. -/
def Entry.counterFits (e : Entry) : Prop :=
  e.defn.inRange ∧ e.faultCounter ≤ e.defn.threshold ∧ (e.faultCounter = e.defn.threshold ↔ e.state = .failed)

/-- `counterFits` is the two laws, entry by entry. -/
theorem rangeLaw_and_counterLaw_iff (s : State) :
    RangeLaw s ∧ CounterLaw s ↔ s.mlc.draft.inRange ∧ ∀ k, (s.entry k).counterFits := by
  constructor
  · rintro ⟨⟨hd, hr⟩, hc⟩
    exact ⟨hd, fun k => ⟨hr k, hc k⟩⟩
  · rintro ⟨hd, hk⟩
    exact ⟨⟨hd, fun k => (hk k).1⟩, fun k => (hk k).2⟩

theorem inRange_draftDefaults : draftDefaults.inRange := by unfold Definition.inRange; decide

/-- A fault counter of 0 fits every entry that is not FAILED. -/
theorem Entry.counterFits_of_zero {e : Entry} (hr : e.defn.inRange) (hc : e.faultCounter = 0) (hs : e.state ≠ .failed) :
    e.counterFits := by
  obtain ⟨-, -, -, -, -, ht, -⟩ := id hr
  exact ⟨hr, by omega, by omega, fun h => absurd h hs⟩

/-- A fault counter raised by one fits when the entry fails exactly at its threshold (R66, R132). -/
theorem Entry.counterFits_of_succ {e x : Entry} (h : e.counterFits) (hs : e.state ≠ .failed) (hd : x.defn = e.defn)
    (hc : x.faultCounter = e.faultCounter + 1) (hx : x.state = .failed ↔ e.faultCounter + 1 = e.defn.threshold) :
    x.counterFits := by
  obtain ⟨hr, hle, hiff⟩ := h
  have hne : e.faultCounter ≠ e.defn.threshold := fun h => hs (hiff.mp h)
  refine ⟨by rw [hd]; exact hr, by rw [hd, hc]; omega, ?_⟩
  rw [hd, hc, hx]

theorem keepsEntry_counterFits : KeepsEntry Definition.inRange Entry.counterFits where
  defaults := inRange_draftDefaults
  setField _ _ _ _ hd h := inRange_setField hd h
  omitField _ _ _ hd h := inRange_omitField hd h
  empty := Entry.counterFits_of_zero inRange_draftDefaults rfl (by decide)
  discard _ h := h
  write e r _ h := by
    refine entryAfterWrite_keeps h (fun _ _ hx => hx) (fun _ _ => h) (fun c p hs => ?_) (fun _ _ _ => h) ?_
    · refine Entry.counterFits_of_succ h hs rfl rfl ?_
      dsimp only
      split <;> simp_all
    · intro v p _ _ _ _
      exact Entry.counterFits_of_zero h.1 rfl (by simp)
  late e hs h := by
    refine Entry.counterFits_of_succ h (by rcases hs with hs | hs | hs <;> simp [hs]) rfl rfl ?_
    unfold Entry.late
    dsimp only
    split <;> simp_all
  openPhase _ _ h := h
  processorReset e h := by
    unfold Entry.afterProcessorReset
    split
    · rename_i hr
      obtain ⟨hrange, hle, hiff⟩ := h
      have hs : e.state ≠ .failed := fun hs => by rw [hs] at hr; cases hr
      exact ⟨hrange, hle, fun hc => absurd (hiff.mp hc) hs, fun hc => nomatch hc⟩
    · exact h
  install d st hd _ hst := by
    refine Entry.counterFits_of_zero hd rfl ?_
    rcases hst with rfl | rfl <;> simp [freshEntry]
  rearm e _ _ h := Entry.counterFits_of_zero h.1 rfl (by simp [Entry.rearmed])
  start e h := by
    unfold Entry.started
    split
    · exact Entry.counterFits_of_zero h.1 rfl (by simp [freshEntry])
    · exact h
  stop e h := by
    unfold Entry.stopped
    split
    · exact Entry.counterFits_of_zero h.1 rfl (by simp)
    · exact h

/-! ### The dwell counter and the warn state (R72, R84, R98 to R100) -/

/-- What `WarnLaw` says of one entry. -/
def Entry.warnFits (e : Entry) : Prop :=
  e.dwellCounter ≤ e.defn.dwell ∧
  (e.defn.alarmMode = .single → e.warn = .outside → e.singleFired = true) ∧
  (e.defn.alarmMode ≠ .single → e.singleFired = false) ∧
  (e.defn.format.numeric = false → e.dwellCounter = 0 ∧ e.warn = .inside ∧ e.singleFired = false)

/-- The band check keeps the dwell counter within the dwell (R84). -/
theorem bandCheck_dwell_le {d : Definition} {n : Nat} (h : n ≤ d.dwell) (x : Num) : (bandCheck d n x).2 ≤ d.dwell := by
  unfold bandCheck
  split_ifs
  · exact h
  · dsimp only; omega
  · exact le_rfl
  · exact Nat.zero_le _

/-- In SINGLE mode the warning stage leaves the condition OUTSIDE only with the flag set (R100). -/
theorem warnStage_of_single {d : Definition} {w : WarnCondition} {fired : Bool} (hd : d.alarmMode = .single)
    (h : w = .outside → fired = true) (x : Num) :
    (warnStage d w fired x).condition = .outside → (warnStage d w fired x).fired = true := by
  unfold warnStage
  split
  · exact h
  · simp only [hd]
    intro hn
    cases w with
    | inside => simp [hn]
    | outside => simp [h rfl]

/-- Outside SINGLE mode the warning stage leaves the flag as it was (R98, R99). -/
theorem warnStage_fired_of_ne {d : Definition} (hd : d.alarmMode ≠ .single) (w : WarnCondition) (fired : Bool)
    (x : Num) : (warnStage d w fired x).fired = fired := by
  unfold warnStage
  split
  · rfl
  · cases hm : d.alarmMode with
    | level => rfl
    | edge => rfl
    | single => exact absurd hm hd

/-- The findings of a numeric value, or those of a write that moves none of the three fields (R72). -/
theorem findings_cases (e : Entry) (c : Option Value) :
    ((findings e c).dwell = e.dwellCounter ∧ (findings e c).warn = e.warn ∧ (findings e c).fired = e.singleFired) ∨
    ∃ v, e.defn.format.numeric = true ∧ findings e c = numericFindings e v := by
  cases c with
  | none => exact .inl ⟨rfl, rfl, rfl⟩
  | some v =>
    unfold findings
    cases hf : e.defn.format with
    | unsigned | signed | real32 | real64 => exact .inr ⟨v, rfl, rfl⟩
    | sequence | flags => exact .inl ⟨rfl, rfl, rfl⟩

/-- The findings of a write keep the warn state in its law. -/
theorem Entry.warnFits_withFindings {e : Entry} (h : e.warnFits) (c : Option Value) (p : Option PendingHalf) :
    (e.withFindings (findings e c) p).warnFits := by
  obtain ⟨hdwell, hsingle, hother, hplain⟩ := h
  rcases findings_cases e c with ⟨hd, hw, hf⟩ | ⟨v, hn, hv⟩
  · unfold Entry.withFindings
    rw [hd, hw, hf]
    exact ⟨hdwell, hsingle, hother, hplain⟩
  · rw [hv]
    exact ⟨bandCheck_dwell_le hdwell _, fun hm => warnStage_of_single hm (hsingle hm) _,
      fun hm => (warnStage_fired_of_ne hm _ _ _).trans (hother hm), fun hp => by
        have hp' : e.defn.format.numeric = false := hp
        rw [hn] at hp'; cases hp'⟩

/-- A dwell counter set back to 0 keeps the warn state in its law. -/
theorem Entry.warnFits_of_dwell_zero {e x : Entry} (h : e.warnFits) (hd : x.defn = e.defn) (hw : x.warn = e.warn)
    (hf : x.singleFired = e.singleFired) (hz : x.dwellCounter = 0) : x.warnFits := by
  obtain ⟨-, hsingle, hother, hplain⟩ := h
  unfold Entry.warnFits
  rw [hd, hw, hf, hz]
  exact ⟨Nat.zero_le _, hsingle, hother, fun hp => ⟨rfl, (hplain hp).2⟩⟩

/-- The dynamic values of INSTALL, START and REARM meet the law (R8, R16, R19). -/
theorem Entry.warnFits_of_cleared {e : Entry} (hz : e.dwellCounter = 0) (hw : e.warn = .inside)
    (hf : e.singleFired = false) : e.warnFits := by
  unfold Entry.warnFits
  rw [hz, hw, hf]
  exact ⟨Nat.zero_le _, fun _ => WarnCondition.noConfusion, fun _ => rfl, fun _ => ⟨rfl, rfl, rfl⟩⟩

theorem keepsEntry_warnFits : KeepsEntry (fun _ => True) Entry.warnFits where
  defaults := trivial
  setField _ _ _ _ _ _ := trivial
  omitField _ _ _ _ _ := trivial
  empty := Entry.warnFits_of_cleared rfl rfl rfl
  discard _ h := h
  write e r _ h := entryAfterWrite_keeps h (fun _ _ hx => hx) (fun _ _ => h)
    (fun c p _ => Entry.warnFits_withFindings h c p) (fun c p _ => Entry.warnFits_withFindings h c p)
    (fun v p _ _ _ _ => Entry.warnFits_of_dwell_zero (Entry.warnFits_withFindings h (some v) p) rfl rfl rfl rfl)
  late _ _ h := h
  openPhase _ _ h := h
  processorReset e h := by
    unfold Entry.afterProcessorReset
    split <;> exact h
  install _ _ _ _ _ := Entry.warnFits_of_cleared rfl rfl rfl
  rearm _ _ _ _ := Entry.warnFits_of_cleared rfl rfl rfl
  start e h := by
    unfold Entry.started
    split
    · exact Entry.warnFits_of_cleared rfl rfl rfl
    · exact h
  stop e h := by
    unfold Entry.stopped
    split
    · exact Entry.warnFits_of_dwell_zero h rfl rfl rfl rfl
    · exact h

/-- Settles O52: both laws are laws of single entries, so it is enough that each change of an entry keeps them. -/
theorem stepKeepsCountersAndWarnState : Obligations.StepKeepsCountersAndWarnState := by
  intro s t hx
  constructor
  · intro hr hc
    exact (rangeLaw_and_counterLaw_iff t).mpr (step_preserves keepsEntry_counterFits.keeps (fun _ _ h => h) hx
      ((rangeLaw_and_counterLaw_iff s).mp ⟨hr, hc⟩))
  · intro hw
    exact (step_preserves keepsEntry_warnFits.keeps (fun _ _ h => h) hx ⟨trivial, hw⟩).2

/-! ### The last good value (R65) -/

/-- What `LastGoodLaw` says of one value under a definition. -/
def Definition.admitsGood (d : Definition) (v : Value) : Prop :=
  v.fits d.format ∧
  (d.format.numeric = true →
    outsideBand (d.hardLow.number d.format) (d.hardHigh.number d.format) (readValue d.format v) = false) ∧
  ∀ c, readClass d.format v = some c → d.allowsClass c = true

/-- What `LastGoodLaw` says of one entry. -/
def Entry.lastGoodFits (e : Entry) : Prop := ∀ v, e.lastGood = some v → e.defn.admitsGood v

/-- A NaN is outside no band (R80, R83). -/
theorem outsideBand_nan (lo hi : Option Num) : outsideBand lo hi .nan = false := by
  have below_nan : ∀ h : Num, h.below .nan = false := fun h => by cases h <;> rfl
  have nan_below : ∀ l : Num, Num.nan.below l = false := fun _ => rfl
  cases lo <;> cases hi <;> simp [outsideBand, below_nan, nan_below]

/-- A value that the band check neither suspects nor refuses is not outside the hard band (R83, R84). -/
theorem not_outsideBand_of_bandCheck {d : Definition} {n : Nat} {x : Num} (hs : (bandCheck d n x).1 ≠ .suspect)
    (hl : (bandCheck d n x).1 ≠ .limit) :
    outsideBand (d.hardLow.number d.format) (d.hardHigh.number d.format) x = false := by
  by_cases hx : x = .nan
  · rw [hx]; exact outsideBand_nan _ _
  · by_contra ho
    rw [Bool.not_eq_false] at ho
    unfold bandCheck at hs hl
    rw [if_neg (by simpa using hx), if_pos ho] at hs hl
    split at hs
    · exact hs rfl
    · rename_i hd
      rw [if_neg hd] at hl
      exact hl rfl

/-- A numeric value without a fault and not suspect is in the hard band and of an allowed class (R82, R83). -/
theorem numericFindings_admits {e : Entry} {v : Value} (hf : (numericFindings e v).faults = 0)
    (hb : (numericFindings e v).band ≠ .suspect) :
    outsideBand (e.defn.hardLow.number e.defn.format) (e.defn.hardHigh.number e.defn.format)
      (readValue e.defn.format v) = false ∧
    ∀ c, readClass e.defn.format v = some c → e.defn.allowsClass c = true := by
  simp only [numericFindings, BitVec.ofNat_eq_ofNat, BitVec.or_eq_zero_iff, kindIf_eq_zero, beq_eq_false_iff_ne] at hf
  obtain ⟨hclass, hlimit⟩ := hf
  refine ⟨not_outsideBand_of_bandCheck hb hlimit, fun c hc => ?_⟩
  rw [hc] at hclass
  simpa [classFault] using hclass

/-- A clean write's value is one that the definition admits as last good value (R65). -/
theorem admitsGood_of_clean {e : Entry} {r : WriteRequest} {v : Value}
    (hv : checkedValue e r (pairingStage e r) = some v) (hf : (findings e (some v)).faults = 0)
    (hb : (findings e (some v)).band ≠ .suspect) : e.defn.admitsGood v := by
  have hfits : v.fits e.defn.format := by
    rcases checkedValue_eq_some hv with ⟨-, rfl, hne, -⟩ | ⟨lo, hi, -, rfl, heq⟩
    · exact hne
    · exact heq
  refine ⟨hfits, ?_⟩
  unfold findings at hf hb
  cases hm : e.defn.format with
  | unsigned | signed | real32 | real64 =>
    simp only [hm] at hf hb
    rw [← hm]
    exact ⟨fun _ => (numericFindings_admits hf hb).1, (numericFindings_admits hf hb).2⟩
  | sequence | flags => exact ⟨fun h => (by cases h), fun _ h => (by cases h)⟩

theorem Entry.lastGoodFits_of_none {e : Entry} (h : e.lastGood = none) : e.lastGoodFits := by
  intro v hv
  rw [h] at hv
  cases hv

theorem keepsEntry_lastGoodFits : KeepsEntry (fun _ => True) Entry.lastGoodFits where
  defaults := trivial
  setField _ _ _ _ _ _ := trivial
  omitField _ _ _ _ _ := trivial
  empty := Entry.lastGoodFits_of_none rfl
  discard _ h := h
  write e r _ h := by
    refine entryAfterWrite_keeps h (fun _ _ hx => hx) (fun _ _ => h) (fun _ _ _ => h) (fun _ _ _ => h) ?_
    intro v p _ hv hf hb w hw
    cases hw
    exact admitsGood_of_clean (e := e) hv hf hb
  late _ _ h := h
  openPhase _ _ h := h
  processorReset e h := by
    unfold Entry.afterProcessorReset
    split <;> exact h
  install _ _ _ _ _ := Entry.lastGoodFits_of_none rfl
  rearm _ _ _ _ := Entry.lastGoodFits_of_none rfl
  start e h := by
    unfold Entry.started
    split
    · exact Entry.lastGoodFits_of_none rfl
    · exact h
  stop e h := by
    unfold Entry.stopped
    split
    · exact Entry.lastGoodFits_of_none rfl
    · exact h

/-- Settles O55: only a clean write sets a last good value, and its checks are the law. -/
theorem stepKeepsLastGoodInBand : Obligations.StepKeepsLastGoodInBand := by
  intro s t h hx
  exact (step_preserves keepsEntry_lastGoodFits.keeps (fun _ _ h => h) hx ⟨trivial, h⟩).2

end Sys2Proof.Machine

/-! PROOF. The table of covered words and the writes that wait in the queue (R1, R14, R15, R40 to R42). -/
namespace Sys2Proof.Machine

/-! ### Covered words -/

/-- The first part of `TableLaw`: no two entries that are not EMPTY cover a common word (R15). -/
def WordsApart (s : State) : Prop :=
  ∀ i j a, (s.entry i).covers a = true → (s.entry j).covers a = true → i = j

/-- The second part of `TableLaw`, for one entry (R1, R14). -/
def Entry.tableFits (e : Entry) : Prop :=
  (e.state = .empty → e = emptyEntry) ∧ (e.state ≠ .empty → e.defn.consistent = true)

theorem Entry.tableFits_iff (e : Entry) :
    e.tableFits ↔ if e.state = .empty then e = emptyEntry else e.defn.consistent = true := by
  unfold Entry.tableFits
  split
  · rename_i hs; exact ⟨fun h => h.1 hs, fun h => ⟨fun _ => h, fun hn => absurd hs hn⟩⟩
  · rename_i hs; exact ⟨fun h => h.2 hs, fun h => ⟨fun he => absurd he hs, fun _ => h⟩⟩

theorem tableLaw_iff (s : State) : TableLaw s ↔ WordsApart s ∧ ∀ k, (s.entry k).tableFits := by
  simp only [Entry.tableFits_iff]
  exact Iff.rfl

/-- Which words an entry covers (R5). -/
theorem Entry.covers_iff (e : Entry) (a : Addr) : e.covers a = true ↔
    e.state ≠ .empty ∧ (a = e.defn.base ∨ e.defn.format = .real64 ∧ a = e.defn.base + 1) := by
  simp [Entry.covers, Definition.covers]

/-- An entry that covers a word is not EMPTY. -/
theorem Entry.state_ne_empty_of_covers {e : Entry} {a : Addr} (h : e.covers a = true) : e.state ≠ .empty :=
  ((e.covers_iff a).mp h).1

/-- The covered words depend on the static part and on whether the entry is EMPTY. -/
theorem Entry.covers_mono {e x : Entry} (hd : x.defn = e.defn) (hs : e.state = .empty → x.state = .empty) {a : Addr}
    (h : x.covers a = true) : e.covers a = true := by
  rw [Entry.covers_iff] at h ⊢
  rw [← hd]
  exact ⟨fun he => h.1 (hs he), h.2⟩

theorem covers_emptyEntry (a : Addr) : emptyEntry.covers a = false := rfl

/-- Entries that come to cover no more words stay apart. -/
theorem WordsApart.mono {s t : State} (h : ∀ k a, (t.entry k).covers a = true → (s.entry k).covers a = true)
    (hs : WordsApart s) : WordsApart t :=
  fun i j a hi hj => hs i j a (h i a hi) (h j a hj)

/-- Two definitions that cover a common word overlap (R15). -/
theorem Definition.overlaps_of_covers {d e : Definition} {a : Addr} (hd : d.covers a = true) (he : e.covers a = true) :
    d.overlaps e = true := by
  simp only [Definition.covers, Bool.or_eq_true, Bool.and_eq_true, beq_iff_eq] at hd
  simp only [Definition.overlaps, Bool.or_eq_true, Bool.and_eq_true, beq_iff_eq]
  rcases hd with rfl | ⟨hf, rfl⟩
  · exact .inl he
  · exact .inr ⟨hf, he⟩

/-- A draft that passes the check of R15 shares no word with an entry that is not EMPTY. -/
theorem not_covers_of_draftOverlaps {s : State} {d : Definition} (h : s.draftOverlaps d = false) {a : Addr}
    (hd : d.covers a = true) (j : Index) : (s.entry j).covers a = false := by
  by_contra hc
  rw [Bool.not_eq_false, Entry.covers, Bool.and_eq_true, bne_iff_ne] at hc
  have ho : s.draftOverlaps d = true := by
    unfold State.draftOverlaps
    rw [List.any_eq_true]
    exact ⟨j, mem_indices j, by simp [hc.1, Definition.overlaps_of_covers hd hc.2]⟩
  rw [h] at ho
  cases ho

/-- The base of a REAL64 pair with an even base, from either of its words (R5, R14, R36; log 13). -/
theorem pairBase_eq {base a : Addr} (heven : base.getLsbD 0 = false) (h : a = base ∨ a = base + 1) :
    pairBase a = base := by
  have hbit : ∀ i (hi : i < 26), base[i] = true → i ≠ 0 := by
    rintro i hi hb rfl
    rw [← BitVec.getLsbD_eq_getElem, heven] at hb
    cases hb
  have hdisjoint : base &&& 1#26 = 0#26 := by
    ext i hi
    simpa [BitVec.getElem_one] using hbit i hi
  have hclear : base &&& ~~~1#26 = base := by
    ext i hi
    simpa only [BitVec.getElem_and, BitVec.getElem_not, BitVec.getElem_one, Bool.and_eq_left_iff_imp,
      Bool.not_eq_true', decide_eq_false_iff_not] using hbit i hi
  unfold pairBase
  rcases h with rfl | rfl
  · exact hclear
  · have hor : base + 1 = base ||| 1#26 := BitVec.add_eq_or_of_and_eq_zero _ _ hdisjoint
    have hdrop : (base ||| 1#26) &&& ~~~1#26 = base &&& ~~~1#26 := by
      ext i hi
      simp only [BitVec.getElem_and, BitVec.getElem_or, BitVec.getElem_not, Bool.and_or_distrib_right,
        Bool.and_not_self, Bool.or_false]
    rw [hor, hdrop, hclear]

/-- Both words that a slot of a consistent REAL64 entry writes are covered by it (R14, R36). -/
theorem Entry.covers_pair {e : Entry} {a : Addr} (hf : e.defn.format = .real64) (hc : e.defn.consistent = true)
    (h : e.covers a = true) : e.covers (pairBase a) = true ∧ e.covers (pairBase a + 1) = true := by
  have heven : e.defn.base.getLsbD 0 = false := by
    simp only [Definition.consistent, hf, Bool.and_eq_true] at hc
    simpa using hc.1
  simp only [Entry.covers_iff, hf, true_and] at h ⊢
  rw [pairBase_eq heven h.2]
  exact ⟨⟨h.1, .inl rfl⟩, h.1, .inr rfl⟩

/-! ### The table, entry by entry -/

/-- A write at an entry that is not EMPTY keeps its static part and leaves it not EMPTY. -/
theorem entryAfterWrite_keeps_table {e : Entry} (hs : e.state ≠ .empty) (r : WriteRequest) :
    (entryAfterWrite e r).defn = e.defn ∧ (entryAfterWrite e r).state ≠ .empty := by
  refine entryAfterWrite_keeps (Q := fun x => x.defn = e.defn ∧ x.state ≠ .empty) ⟨rfl, hs⟩ (fun _ _ h => h)
    (fun _ _ => ⟨rfl, hs⟩) (fun c p _ => ⟨rfl, ?_⟩) (fun _ _ _ => ⟨rfl, hs⟩) (fun _ _ _ _ _ _ => ⟨rfl, by simp⟩)
  dsimp only
  split
  · simp
  · exact hs

/-- An entry that is not EMPTY fits the table when its static part is consistent (R14). -/
theorem Entry.tableFits_of_consistent {e : Entry} (hs : e.state ≠ .empty) (hc : e.defn.consistent = true) :
    e.tableFits :=
  ⟨fun he => absurd he hs, fun _ => hc⟩

/-- An entry fits the table when a change keeps its static part and does not make it EMPTY. -/
theorem Entry.tableFits_of_same {e x : Entry} (h : e.tableFits) (hs : e.state ≠ .empty) (hd : x.defn = e.defn)
    (hx : x.state ≠ .empty) : x.tableFits :=
  tableFits_of_consistent hx (by rw [hd]; exact h.2 hs)

theorem tableFits_emptyEntry : emptyEntry.tableFits := ⟨fun _ => rfl, fun h => absurd rfl h⟩

theorem EntryState.ne_empty_of_supervised {st : EntryState} (h : st.supervised = true) : st ≠ .empty := by
  rintro rfl
  cases h

theorem keepsEntry_tableFits : KeepsEntry (fun _ => True) Entry.tableFits where
  defaults := trivial
  setField _ _ _ _ _ _ := trivial
  omitField _ _ _ _ _ := trivial
  empty := tableFits_emptyEntry
  discard e h := by
    by_cases hs : e.state = .empty
    · rw [h.1 hs]; exact tableFits_emptyEntry
    · exact Entry.tableFits_of_same h hs rfl hs
  write e r hs h := by
    have hne := EntryState.ne_empty_of_supervised hs
    obtain ⟨hd, hx⟩ := entryAfterWrite_keeps_table hne r
    exact Entry.tableFits_of_same h hne hd hx
  late e hs h := by
    refine Entry.tableFits_of_same h (by rcases hs with hs | hs | hs <;> simp [hs]) rfl ?_
    unfold Entry.late
    dsimp only
    split <;> simp
  openPhase e hs h := by
    have hne : e.state ≠ .empty := by simp [hs]
    exact Entry.tableFits_of_same h hne rfl hne
  processorReset e h := by
    unfold Entry.afterProcessorReset
    split
    · rename_i hr
      exact Entry.tableFits_of_same h (fun hs => by rw [hs] at hr; cases hr) rfl (by simp)
    · exact h
  install d st _ hc hst := by
    refine Entry.tableFits_of_consistent ?_ hc
    rcases hst with rfl | rfl <;> simp [freshEntry]
  rearm e hs _ h := Entry.tableFits_of_same h hs rfl (by simp [Entry.rearmed])
  start e h := by
    unfold Entry.started
    split
    · rename_i hd
      have hd' : e.state = .defined := by simpa using hd
      exact Entry.tableFits_of_same h (by simp [hd']) rfl (by simp [freshEntry])
    · exact h
  stop e h := by
    unfold Entry.stopped
    split
    · rename_i hr
      exact Entry.tableFits_of_same h (fun hs => by rw [hs] at hr; cases hr) rfl (by simp)
    · exact h

/-! ### Slots that wait -/

/-- What `IssueLaw` says of one waiting slot. -/
def State.mayIssue (s : State) (x : Slot) : Prop :=
  (x.kind = .read ↔ x.data = .none) ∧ ∀ a ∈ x.accesses, ∀ k, (s.entry k).covers a.addr = true →
    s.esc.device ≠ .lockdown ∧ (a.op ≠ .read → (s.entry k).state ≠ .failed)

/-- The slot of a read makes no access that writes (R32, R34). -/
theorem Slot.op_of_read {x : Slot} (h : x.kind = .read ↔ x.data = .none) (hk : x.kind = .read) {a : Access}
    (ha : a ∈ x.accesses) : a.op = .read := by
  rw [Slot.accesses, h.mp hk, List.mem_singleton] at ha
  rw [ha]

/-- Number and progress of a slot do not matter for what it may issue. -/
theorem mayIssue_renumber {s : State} {x : Slot} (n : SlotNo) (p : Progress) (h : s.mayIssue x) :
    s.mayIssue { x with number := n, progress := p } := by
  refine ⟨h.1, fun a ha k hk => ?_⟩
  obtain ⟨b, hb, haddr, hop⟩ : ∃ b ∈ x.accesses, b.addr = a.addr ∧ b.op = a.op := by
    unfold Slot.accesses at ha ⊢
    cases hd : x.data <;> simp only [hd, List.mem_cons, List.not_mem_nil, or_false] at ha ⊢
    case none => subst ha; simp
    case one => subst ha; simp
    case two => rcases ha with rfl | rfl <;> simp
  rw [← haddr] at hk
  rw [← hop]
  exact h.2 b hb k hk

/-- A slot whose words one entry alone covers, which is not FAILED, may issue outside LOCKDOWN. -/
theorem mayIssue_of_sole {s : State} (hs : WordsApart s) {k : Index} (hd : s.esc.device ≠ .lockdown)
    (hf : (s.entry k).state ≠ .failed) {x : Slot} (hx : x.kind = .read ↔ x.data = .none)
    (hc : ∀ a ∈ x.accesses, (s.entry k).covers a.addr = true) : s.mayIssue x := by
  refine ⟨hx, fun a ha j hj => ⟨hd, fun _ => ?_⟩⟩
  rwa [hs j k a.addr hj (hc a ha)]

/-- A slot that reaches no covered word may issue. -/
theorem mayIssue_of_uncovered {s : State} {x : Slot} (hx : x.kind = .read ↔ x.data = .none)
    (hc : ∀ a ∈ x.accesses, ∀ k, (s.entry k).covers a.addr = false) : s.mayIssue x :=
  ⟨hx, fun a ha k hk => by rw [hc a ha k] at hk; cases hk⟩

/-- A read may issue outside LOCKDOWN (R42). -/
theorem mayIssue_of_read {s : State} (hd : s.esc.device ≠ .lockdown) {x : Slot} (hk : x.kind = .read)
    (hx : x.data = .none) : s.mayIssue x :=
  have h : x.kind = .read ↔ x.data = .none := iff_of_true hk hx
  ⟨h, fun _ ha _ _ => ⟨hd, fun hop => absurd (Slot.op_of_read h hk ha) hop⟩⟩

/-- The law after a slot was placed: it is enough that the slot, when it needs memory, may issue. -/
theorem issueLaw_placeSlot {s : State} (h : IssueLaw s) {x : Slot}
    (hx : x.disposition.needsMemory = true → s.mayIssue x) : IssueLaw (placeSlot x s) := by
  intro y hy hd
  rw [slots_placeSlot, List.mem_append, List.mem_singleton] at hy
  rcases hy with hy | rfl
  · exact h y hy hd
  · refine mayIssue_renumber (s := s) _ _ (hx ?_)
    by_contra hn
    simp [hn] at hd

/-- A slot of the queue waits that would issue what `y` would issue. -/
def waitsIn (slots : List Slot) (y : Slot) : Prop :=
  ∃ x ∈ slots, x.progress = .decided ∧ y.kind = x.kind ∧ y.data = x.data ∧ y.accesses = x.accesses

theorem waitsIn_of_mem {slots : List Slot} {y : Slot} (h : y ∈ slots) (hd : y.progress = .decided) :
    waitsIn slots y :=
  ⟨y, h, hd, rfl, rfl, rfl⟩

/-- A changed entry has the same static part, is EMPTY where it was, and FAILED only where it was. -/
def Entry.narrowsTo (e x : Entry) : Prop :=
  x.defn = e.defn ∧ (e.state = .empty → x.state = .empty) ∧ (x.state = .failed → e.state = .failed)

theorem Entry.narrowsTo_refl (e : Entry) : e.narrowsTo e := ⟨rfl, id, id⟩
theorem Entry.narrowsTo_of_ne {e x : Entry} (hs : e.state ≠ .empty) (hd : x.defn = e.defn) (hx : x.state ≠ .failed) :
    e.narrowsTo x :=
  ⟨hd, fun he => absurd he hs, fun hf => absurd hf hx⟩

/-- The state has come to cover no more, to fail no entry, and to let no more slots wait. -/
structure Narrows (s t : State) : Prop where
  covers : ∀ k a, (t.entry k).covers a = true → (s.entry k).covers a = true
  failed : ∀ k, (t.entry k).state = .failed → (s.entry k).state = .failed
  device : t.esc.device = .lockdown → s.esc.device = .lockdown
  waiting : ∀ y ∈ t.transit.slots, y.progress = .decided → waitsIn s.transit.slots y

theorem State.mayIssue_of_narrows {s t : State} (n : Narrows s t) {x y : Slot} (hk : y.kind = x.kind)
    (hd : y.data = x.data) (ha : y.accesses = x.accesses) (h : s.mayIssue x) : t.mayIssue y := by
  unfold State.mayIssue
  rw [hk, hd, ha]
  refine ⟨h.1, fun a ha k hc => ?_⟩
  obtain ⟨hdev, hst⟩ := h.2 a ha k (n.covers k _ hc)
  exact ⟨fun hl => hdev (n.device hl), fun hop hf => hst hop (n.failed k hf)⟩

theorem IssueLaw.narrow {s t : State} (n : Narrows s t) (h : IssueLaw s) : IssueLaw t := by
  intro y hy hd
  obtain ⟨x, hx, hxd, hk, hdata, ha⟩ := n.waiting y hy hd
  exact State.mayIssue_of_narrows n hk hdata ha (h x hx hxd)

/-- Where the queue has not changed, the slots that wait are those that waited. -/
theorem waitsIn_of_eq {s t : State} (hs : t.transit.slots = s.transit.slots) :
    ∀ y ∈ t.transit.slots, y.progress = .decided → waitsIn s.transit.slots y :=
  fun y hy hd => waitsIn_of_mem (by rwa [hs] at hy) hd

/-- A change of the queue alone that lets no more slots wait. -/
theorem Narrows.of_slots {s t : State} (he : t.entries = s.entries) (hd : t.esc.device = s.esc.device)
    (hw : ∀ y ∈ t.transit.slots, y.progress = .decided → waitsIn s.transit.slots y) : Narrows s t where
  covers k a h := by rwa [entry_congr he k] at h
  failed k h := by rwa [entry_congr he k] at h
  device h := by rwa [hd] at h
  waiting := hw

/-- A change of other blocks. -/
theorem Narrows.of_frame {s t : State} (he : t.entries = s.entries) (hd : t.esc.device = s.esc.device)
    (hs : t.transit.slots = s.transit.slots) : Narrows s t :=
  .of_slots he hd (waitsIn_of_eq hs)

/-- A change of entries, each narrowed, with no more slots that wait. -/
theorem Narrows.of_entries {s t : State} (he : ∀ k, (s.entry k).narrowsTo (t.entry k))
    (hdev : t.esc.device = .lockdown → s.esc.device = .lockdown)
    (hw : ∀ y ∈ t.transit.slots, y.progress = .decided → waitsIn s.transit.slots y) : Narrows s t where
  covers k _ h := Entry.covers_mono (he k).1 (he k).2.1 h
  failed k h := (he k).2.2 h
  device := hdev
  waiting := hw

/-! ### Conversions (R40 to R42) -/

/-- The entry into LOCKDOWN leaves no waiting slot that reaches a covered word (R41, R42). -/
theorem issueLaw_enterLockdown {s : State} (reason : LockdownReason)
    (h : ∀ x ∈ s.transit.slots, x.progress = .decided → (x.kind = .read ↔ x.data = .none)) :
    IssueLaw (enterLockdown reason s) := by
  intro y hy hd
  rw [slots_enterLockdown, List.mem_map] at hy
  obtain ⟨x, hx, rfl⟩ := hy
  rcases convertForLockdown_cases s x with ⟨he, hl⟩ | ⟨-, w, -, k, -, he | ⟨st, he⟩⟩
  · rw [he] at hd ⊢
    refine mayIssue_of_uncovered (h x hx hd) fun a ha k => ?_
    rw [entry_enterLockdown, covers_discardPending]
    exact lookup_eq_none.mp (hl hd a.addr (access_mem_words ha)) k
  · rw [he] at hd; cases hd
  · rw [he] at hd; cases hd

/-- A failure of entry `k` outside LOCKDOWN, in a state that has the queue, and but for entry `k` the table, of one that
meets the law, converts what the law forbids (R40, R42). -/
theorem issueLaw_takeFailure {s t : State} {k : Index} (h : IssueLaw s) (hdev : t.esc.device ≠ .lockdown)
    (hslots : t.transit.slots = s.transit.slots) (hother : ∀ j, j ≠ k → t.entry j = s.entry j) :
    IssueLaw (takeFailure k t) := by
  have hw : IssueLaw (failureConversion k (t.setEscalation (applyReaction k (t.entry k).defn.reaction t.esc))) := by
    intro y hy hd
    rw [slots_failureConversion, List.mem_map] at hy
    obtain ⟨x, hx, rfl⟩ := hy
    rw [transit_setEscalation, hslots] at hx
    rcases convertForFailure_cases k (t.entry k) t.mlc.poison x with ⟨he, hn⟩ | ⟨-, -, he | ⟨st, he⟩⟩
    · rw [entry_setEscalation, mlc_setEscalation] at hd ⊢
      rw [he] at hd ⊢
      obtain ⟨hkind, hacc⟩ := h x hx hd
      refine ⟨hkind, fun a ha j hj => ⟨hdev, fun hop => ?_⟩⟩
      rw [entry_failureConversion, entry_setEscalation] at hj ⊢
      by_cases hjk : j = k
      · rw [hjk] at hj
        rcases hn hd with hn | hr
        · rw [hn a.addr (access_mem_words ha)] at hj; cases hj
        · exact absurd (Slot.op_of_read hkind hr ha) hop
      · rw [hother j hjk] at hj ⊢
        exact (hacc a ha j hj).2 hop
    · rw [entry_setEscalation, mlc_setEscalation, he] at hd; cases hd
    · rw [entry_setEscalation, mlc_setEscalation, he] at hd; cases hd
  unfold takeFailure
  dsimp only
  split
  · exact issueLaw_enterLockdown _ fun x hx hd => (hw x hx hd).1
  · exact hw

/-! ### Arrivals -/

/-- A slot of this placement writes one word, or, at a REAL64 entry, both words of the pair, when it needs memory. -/
def Placement.fitsFormat (p : Placement) (f : Format) : Prop :=
  p.disposition.needsMemory = true → (∃ w, p.data = .one w) ∨ (∃ lo hi, p.data = .two lo hi) ∧ f = .real64

theorem fitsFormat_of_not_needsMemory {p : Placement} (f : Format) (h : p.disposition.needsMemory = false) :
    p.fitsFormat f := fun hn => by rw [h] at hn; cases hn

/-- Two words are received at a REAL64 entry alone (R57). -/
theorem real64_of_wordsReceived {e : Entry} {r : WriteRequest} {lo hi : Word}
    (h : wordsReceived r (pairingStage e r) = .pair lo hi) : e.defn.format = .real64 := by
  by_contra hf
  rw [pairingStage_eq_notReached.mpr fun hr => hf hr.1] at h
  cases h

theorem fitsFormat_sendAsReceived (e : Entry) (r : WriteRequest) :
    (sendAsReceived (wordsReceived r (pairingStage e r))).fitsFormat e.defn.format := by
  cases hw : wordsReceived r (pairingStage e r) with
  | word w => exact fun _ => .inl ⟨w, rfl⟩
  | pair lo hi => exact fun _ => .inr ⟨⟨lo, hi, rfl⟩, real64_of_wordsReceived hw⟩

theorem fitsFormat_faultedPlacement (e : Entry) (r : WriteRequest) :
    (faultedPlacement e r (wordsReceived r (pairingStage e r))).fitsFormat e.defn.format := by
  unfold faultedPlacement
  split
  · exact fitsFormat_sendAsReceived e r
  · cases hw : wordsReceived r (pairingStage e r) with
    | word w => exact fun _ => .inl ⟨_, rfl⟩
    | pair lo hi => exact fun _ => .inr ⟨⟨_, _, rfl⟩, real64_of_wordsReceived hw⟩
  · exact fitsFormat_of_not_needsMemory _ rfl
  · exact fitsFormat_of_not_needsMemory _ rfl

/-- Every inspection places a slot that fits its entry's format. -/
theorem fitsFormat_inspect (e : Entry) (r : WriteRequest) : (inspect e r).placement.fitsFormat e.defn.format := by
  rcases inspect_cases e r with ⟨-, hi⟩ | ⟨-, p, -, hi⟩ | ⟨-, -, hi⟩
  · rw [hi]; exact fitsFormat_of_not_needsMemory _ rfl
  · rw [hi]; exact fitsFormat_of_not_needsMemory _ rfl
  · rcases judge_cases e r (pairingStage e r) with ⟨-, hj⟩ | ⟨-, -, hj⟩ | ⟨-, -, hj⟩
    · rw [hi, hj]; exact fitsFormat_faultedPlacement e r
    · rw [hi, hj]; exact fitsFormat_sendAsReceived e r
    · rw [hi, hj]; exact fitsFormat_sendAsReceived e r

/-- What an inspection says of FAILED: it fails an entry only by its own word, and drops a write to a FAILED entry. -/
theorem inspect_failed (e : Entry) (r : WriteRequest) :
    ((inspect e r).fails = false → (inspect e r).next.state = .failed → e.state = .failed) ∧
    (e.state = .failed → (inspect e r).placement.disposition = .dropped) := by
  rcases inspect_cases e r with ⟨hs, hi⟩ | ⟨hs, p, -, hi⟩ | ⟨hs, -, hi⟩
  · rw [hi]; exact ⟨fun _ _ => hs, fun _ => rfl⟩
  · rw [hi]; exact ⟨fun _ h => h, fun h => absurd h hs⟩
  · refine ⟨fun hf hn => ?_, fun h => absurd h hs⟩
    rcases judge_cases e r (pairingStage e r) with ⟨-, hj⟩ | ⟨-, -, hj⟩ | ⟨-, -, hj⟩
    · rw [hi, hj] at hf hn
      simp only [faultedWrite] at hf hn
      simpa [hf] using hn
    · rw [hi, hj] at hn; exact hn
    · rw [hi, hj] at hn; cases hn

/-- The slot of an inspected write reaches covered words of its entry alone (R35, R36). -/
theorem covers_accesses_inspectedSlot {e : Entry} {r : WriteRequest} (k : Index) (hc : e.covers r.addr = true)
    (hcons : e.defn.consistent = true) (hm : (inspect e r).placement.disposition.needsMemory = true) {a : Access}
    (ha : a ∈ (inspectedSlot k e.defn r (inspect e r)).accesses) : e.covers a.addr = true := by
  rcases fitsFormat_inspect e r hm with ⟨w, hw⟩ | ⟨⟨lo, hi, hw⟩, hf⟩
  · simp only [Slot.accesses, inspectedSlot, hw, List.mem_singleton] at ha
    rw [ha]; exact hc
  · simp only [Slot.accesses, inspectedSlot, hw, List.mem_cons, List.not_mem_nil, or_false] at ha
    obtain ⟨hlow, hhigh⟩ := Entry.covers_pair hf hcons hc
    rcases ha with rfl | rfl
    · exact hlow
    · exact hhigh

/-- The slot of an inspected write may issue where its entry has not failed. -/
theorem mayIssue_inspectedSlot {s : State} {r : WriteRequest} {k : Index} (hs : WordsApart s)
    (hd : s.esc.device ≠ .lockdown) (hc : (s.entry k).covers r.addr = true) (hcons : (s.entry k).defn.consistent = true)
    (hm : (inspect (s.entry k) r).placement.disposition.needsMemory = true) :
    s.mayIssue (inspectedSlot k (s.entry k).defn r (inspect (s.entry k) r)) := by
  refine mayIssue_of_sole hs hd (fun hf => ?_) (iff_of_false (fun h => nomatch h) fun hn => ?_) fun a ha =>
    covers_accesses_inspectedSlot k hc hcons hm ha
  · rw [(inspect_failed (s.entry k) r).2 hf] at hm; cases hm
  · rcases fitsFormat_inspect (s.entry k) r hm with ⟨w, hw⟩ | ⟨⟨lo, hi, hw⟩, -⟩ <;>
      exact absurd (hw.symm.trans hn) (by simp)

/-! ### Every operation keeps both laws -/

/-- The invariant that every step keeps: both laws, with the entry-wise part of the table named. -/
structure QueuedWritesSafe (s : State) : Prop where
  apart : WordsApart s
  table : ∀ k, (s.entry k).tableFits
  issue : IssueLaw s

theorem queuedWritesSafe_iff (s : State) : QueuedWritesSafe s ↔ TableLaw s ∧ IssueLaw s := by
  rw [tableLaw_iff]
  exact ⟨fun h => ⟨⟨h.apart, h.table⟩, h.issue⟩, fun ⟨⟨ha, ht⟩, hi⟩ => ⟨ha, ht, hi⟩⟩

/-- A change that narrows the table and the queue keeps the invariant when its entries fit the table. -/
theorem QueuedWritesSafe.narrow {s t : State} (h : QueuedWritesSafe s) (n : Narrows s t)
    (ht : ∀ k, (t.entry k).tableFits) : QueuedWritesSafe t :=
  ⟨h.apart.mono n.covers, ht, h.issue.narrow n⟩

/-- A change of the queue alone keeps the invariant when it lets no more slots wait. -/
theorem QueuedWritesSafe.of_slots {s t : State} (h : QueuedWritesSafe s) (he : t.entries = s.entries)
    (hd : t.esc.device = s.esc.device)
    (hw : ∀ y ∈ t.transit.slots, y.progress = .decided → waitsIn s.transit.slots y) : QueuedWritesSafe t :=
  h.narrow (.of_slots he hd hw) fun k => by rw [entry_congr he k]; exact h.table k

/-- A change of other blocks keeps the invariant. -/
theorem QueuedWritesSafe.of_frame {s t : State} (h : QueuedWritesSafe s) (he : t.entries = s.entries)
    (hd : t.esc.device = s.esc.device) (hs : t.transit.slots = s.transit.slots) : QueuedWritesSafe t :=
  h.narrow (.of_frame he hd hs) fun k => by rw [entry_congr he k]; exact h.table k

/-- A slot placed in a state that meets the invariant. -/
theorem QueuedWritesSafe.place {s : State} (h : QueuedWritesSafe s) {x : Slot}
    (hx : x.disposition.needsMemory = true → s.mayIssue x) : QueuedWritesSafe (placeSlot x s) :=
  ⟨h.apart, h.table, issueLaw_placeSlot h.issue hx⟩

/-- An access accepted in CONFIGURE is issued at once and does not wait (R28). -/
theorem QueuedWritesSafe.placeIssued {s : State} (h : QueuedWritesSafe s) (hc : s.canAccept = true)
    (hd : s.esc.device = .configure) {x : Slot} (hx : x.disposition = .forward) :
    QueuedWritesSafe (placeIssued x s) := by
  have hn := (noneDecided_of_canAccept hc hd).1
  refine h.of_slots (by simp) (by simp) fun y hy hp => ?_
  rw [placeIssued_eq hx hn] at hy
  simp only [List.mem_append, List.mem_singleton] at hy
  rcases hy with hy | rfl
  · exact absurd hp (hn y hy)
  · cases hp

/-- The static part of the entry that an inspection answers. -/
theorem defn_next_inspect {e : Entry} (hs : e.state ≠ .empty) (r : WriteRequest) :
    (inspect e r).next.defn = e.defn := by
  obtain ⟨ph, hph⟩ := entryAfterWrite_eq_next e r
  have hd := (entryAfterWrite_keeps_table hs r).1
  rwa [hph] at hd

/-- The timing action of a write that fails no entry narrows the table. -/
theorem narrows_applyTiming {s : State} {r : WriteRequest} {k : Index} (hs : (s.entry k).state ≠ .empty)
    (hf : (inspect (s.entry k) r).fails = false) : Narrows s (applyTiming k (inspect (s.entry k) r) s) := by
  have hentry : ∀ j, (applyTiming k (inspect (s.entry k) r) s).entry j =
      if k = j then entryAfterWrite (s.entry k) r else s.entry j := entry_applyTiming k _ s
  obtain ⟨hd, hx⟩ := entryAfterWrite_keeps_table hs r
  refine .of_entries (fun j => ?_) (by simp) (waitsIn_of_eq (by simp))
  rw [hentry]
  split
  · rename_i hj
    subst hj
    refine ⟨hd, fun he => absurd he hs, fun hfail => (inspect_failed _ r).1 hf ?_⟩
    obtain ⟨ph, hph⟩ := entryAfterWrite_eq_next (s.entry k) r
    rwa [hph] at hfail
  · exact Entry.narrowsTo_refl _

/-- An inspected write keeps the queue's law, its own slot and a failure of its entry included (R42, R63, R66). -/
theorem issueLaw_applyInspection {s : State} {r : WriteRequest} {k : Index} (h : QueuedWritesSafe s)
    (hd : s.esc.device ≠ .lockdown) (hc : (s.entry k).covers r.addr = true) :
    IssueLaw (applyInspection k r (inspect (s.entry k) r) s) := by
  obtain ⟨hapart, htable, hissue⟩ := h
  have hne := Entry.state_ne_empty_of_covers hc
  have hslot : (inspect (s.entry k) r).placement.disposition.needsMemory = true →
      s.mayIssue (inspectedSlot k (s.entry k).defn r (inspect (s.entry k) r)) := fun hm =>
    mayIssue_inspectedSlot hapart hd hc ((htable k).2 hne) hm
  cases hf : (inspect (s.entry k) r).fails
  · have n := narrows_applyTiming hne hf
    rw [applyInspection_of_not_fails hf, defn_next_inspect hne]
    have hplaced := issueLaw_placeSlot (hissue.narrow n) fun hm => State.mayIssue_of_narrows n rfl rfl rfl (hslot hm)
    exact hplaced.narrow (.of_frame (by simp) (by simp) (by simp))
  · rw [applyInspection_of_fails hf, defn_next_inspect hne]
    have hplaced := issueLaw_placeSlot hissue (x := inspectedSlot k (s.entry k).defn r (inspect (s.entry k) r)) hslot
    refine issueLaw_takeFailure hplaced (by simpa using hd) (by simp [slots_placeSlot]) fun j hj => ?_
    rw [entry_latchEvents, entry_placeSlot, entry_placeSlot, entry_applyTiming, if_neg (Ne.symm hj)]

/-- A FORWARD slot makes the one access of its request (R34). -/
theorem accesses_writeSlot (r : WriteRequest) (i : Option Index) :
    (writeSlot r i).accesses = [⟨0, r.addr, .write r.lanes r.data⟩] := rfl
theorem accesses_readSlot (r : ReadRequest) (i : Option Index) :
    (readSlot r i).accesses = [⟨0, r.addr, .read⟩] := rfl

/-- The acceptance of a write keeps the invariant of the queue (R6, R28, R42, R49, R63). -/
theorem issueLaw_acceptWrite {s : State} {r : WriteRequest} (hc : s.canAccept = true) (h : QueuedWritesSafe s) :
    IssueLaw (acceptWrite r s) := by
  have hkind : ∀ i, (writeSlot r i).kind = .read ↔ (writeSlot r i).data = .none := fun i =>
    iff_of_false (fun h => nomatch h) fun h => nomatch h
  have hword : ∀ {i} {a : Access}, a ∈ (writeSlot r i).accesses → a.addr = r.addr := by
    intro i a ha
    rw [accesses_writeSlot, List.mem_singleton] at ha
    rw [ha]
  unfold acceptWrite
  dsimp only
  split
  · rename_i hd
    exact (h.placeIssued hc hd rfl).issue
  · rename_i hl _
    refine (h.place fun _ => mayIssue_of_uncovered (hkind _) fun a ha k => ?_).issue
    rw [hword ha]
    exact lookup_eq_none.mp hl k
  · refine (h.place fun hm => ?_).issue
    cases hm
  · rename_i k hd hl
    have hcov := covers_of_lookup hl
    have hnl : s.esc.device ≠ .lockdown := by simp [hd]
    split
    · exact issueLaw_applyInspection h hnl hcov
    · rename_i hs
      refine (h.place fun _ => mayIssue_of_sole h.apart (k := k) hnl (fun hf => hs ?_) (hkind _) fun a ha => ?_).issue
      · rw [hf]; rfl
      · rw [hword ha]; exact hcov

/-- The acceptance of a read keeps the invariant (R6, R28, R42, R140). -/
theorem QueuedWritesSafe.read {s : State} {r : ReadRequest} (hc : s.canAccept = true) (h : QueuedWritesSafe s) :
    QueuedWritesSafe (acceptRead r s) := by
  unfold acceptRead
  dsimp only
  split
  · rename_i hd
    exact h.placeIssued hc hd rfl
  · rename_i hl _
    refine h.place fun _ => mayIssue_of_uncovered (iff_of_true rfl rfl) fun a ha k => ?_
    rw [accesses_readSlot, List.mem_singleton] at ha
    rw [ha]
    exact lookup_eq_none.mp hl k
  · split
    · rename_i hdec
      refine h.place fun _ => mayIssue_of_read (fun hl => ?_) rfl rfl
      rw [hl] at hdec
      cases hdec
    · exact h.place fun hm => absurd hm Bool.false_ne_true

/-- No slot waits after a drain (R43). -/
theorem not_decided_of_mem_drainSlots {slots : List Slot} {y : Slot} (h : y ∈ drainSlots slots) :
    y.progress ≠ .decided := by
  simp only [drainSlots, List.mem_map, List.mem_filter, beq_iff_eq] at h
  obtain ⟨x, ⟨-, hx⟩, rfl⟩ := h
  simp [hx]

/-- An answer makes no slot wait and leaves what it would issue (R33). -/
theorem waitsIn_of_answerSlot {n : SlotNo} {st : Answer} {d : Word} {slots : List Slot} {y : Slot}
    (h : y ∈ answerSlot n st d slots) (hd : y.progress = .decided) : waitsIn slots y := by
  simp only [answerSlot, List.mem_filter, List.mem_map] at h
  obtain ⟨⟨x, hx, rfl⟩, -⟩ := h
  refine ⟨x, hx, ?_⟩
  split at hd
  · rename_i hn
    simp only [Slot.answered] at hd
    split at hd
    · cases hd
    · rw [if_pos hn]; exact ⟨hd, rfl, rfl, rfl⟩
  · rename_i hn
    rw [if_neg hn]; exact ⟨hd, rfl, rfl, rfl⟩

/-- Issuing lets no more slots wait (R31). -/
theorem mem_of_mem_issueFirst {slots : List Slot} {y : Slot} (h : y ∈ issueFirst slots) (hd : y.progress = .decided) :
    y ∈ slots := by
  induction slots with
  | nil => exact h
  | cons x rest ih =>
    unfold issueFirst at h
    split at h
    · rcases List.mem_cons.mp h with rfl | h
      · cases hd
      · exact List.mem_cons_of_mem _ h
    · rcases List.mem_cons.mp h with rfl | h
      · exact List.mem_cons_self
      · exact List.mem_cons_of_mem _ (ih h)

theorem mem_slots_of_issueOldest {s : State} {y : Slot} (h : y ∈ (issueOldest s).transit.slots)
    (hd : y.progress = .decided) : y ∈ s.transit.slots := by
  unfold issueOldest at h
  split at h
  · exact h
  · exact mem_of_mem_issueFirst h hd

theorem waitsIn_of_takeAnswer {tag : SlotNo} {st : Answer} {d : Word} {s : State} {y : Slot}
    (h : y ∈ (takeAnswer tag st d s).transit.slots) (hd : y.progress = .decided) : waitsIn s.transit.slots y := by
  unfold takeAnswer at h
  split at h
  · exact waitsIn_of_mem h hd
  · exact waitsIn_of_answerSlot h hd

theorem mem_slots_of_takeResponse {s : State} {y : Slot} (h : y ∈ (takeResponse s).transit.slots) :
    y ∈ s.transit.slots := by
  unfold takeResponse at h
  split at h
  · exact h
  · rename_i x rest he
    split at h
    · rw [he]; exact List.mem_cons_of_mem _ h
    · exact h

/-- An expiry keeps the queue's law, also when it fails its entry (R40, R42, R132). -/
theorem issueLaw_lateExpiry {s : State} {k : Index} (h : IssueLaw s) (hd : s.esc.device ≠ .lockdown)
    (hs : (s.entry k).state ≠ .empty) : IssueLaw (lateExpiry k s) := by
  by_cases hf : (s.entry k).faultCounter + 1 = (s.entry k).defn.threshold
  · rw [lateExpiry_of_eq hf]
    refine issueLaw_takeFailure h (by simpa using hd) (by simp) fun j hj => ?_
    rw [entry_latchEvents, entry_setWindow, entry_setEntry_of_ne s (Ne.symm hj)]
  · rw [lateExpiry_of_ne hf]
    refine h.narrow (.of_entries (fun j => ?_) (by simp) (waitsIn_of_eq (by simp)))
    rw [entry_latchEvents, entry_setWindow, entry_setEntry]
    split
    · rename_i hj
      subst hj
      exact Entry.narrowsTo_of_ne hs rfl (by simp [Entry.late, hf])
    · exact Entry.narrowsTo_refl _

/-- INSTALL keeps covered words apart (R15). -/
theorem WordsApart.install {s : State} {k : Index} (h : WordsApart s)
    (ho : s.draftOverlaps s.mlc.draft = false) : WordsApart (installDraft k s) := by
  have hother : ∀ {j a}, k ≠ j → ((installDraft k s).entry j).covers a = true → (s.entry j).covers a = true := by
    intro j a hj hc
    rwa [entry_installDraft, if_neg hj] at hc
  have hnew : ∀ {j a}, ((installDraft k s).entry k).covers a = true → (s.entry j).covers a = true → False := by
    intro j a hk hj
    rw [entry_installDraft, if_pos rfl, Entry.covers, Bool.and_eq_true] at hk
    rw [not_covers_of_draftOverlaps ho hk.2 j] at hj
    cases hj
  intro i j a hi hj
  by_cases hik : k = i
  · by_cases hjk : k = j
    · rw [← hik, ← hjk]
    · subst hik; exact (hnew hi (hother hjk hj)).elim
  · by_cases hjk : k = j
    · subst hjk; exact (hnew hj (hother hik hi)).elim
    · exact h i j a (hother hik hi) (hother hjk hj)

/-- INSTALL adds no FAILED entry, and comes outside LOCKDOWN alone. -/
theorem issueLaw_installDraft {s : State} {k : Index} (h : IssueLaw s) (hd : s.esc.device ≠ .lockdown) :
    IssueLaw (installDraft k s) := by
  have hslots : (installDraft k s).transit.slots = s.transit.slots := by unfold installDraft; split <;> rfl
  have hdev : (installDraft k s).esc.device = s.esc.device := by unfold installDraft; split <;> rfl
  intro x hx hp
  rw [hslots] at hx
  obtain ⟨hkind, hacc⟩ := h x hx hp
  refine ⟨hkind, fun a ha j hj => ⟨by rwa [hdev], fun hop => ?_⟩⟩
  rw [entry_installDraft] at hj ⊢
  split at hj
  · rename_i hk
    rw [if_pos hk]
    simp only [freshEntry]
    split <;> simp
  · rename_i hk
    rw [if_neg hk]
    exact (hacc a ha j hj).2 hop

theorem Entry.narrowsTo_afterProcessorReset (e : Entry) : e.narrowsTo e.afterProcessorReset := by
  unfold Entry.afterProcessorReset
  split
  · rename_i hr
    exact Entry.narrowsTo_of_ne (fun he => by rw [he] at hr; cases hr) rfl (by simp)
  · exact Entry.narrowsTo_refl e
theorem Entry.narrowsTo_started (e : Entry) : e.narrowsTo e.started := by
  unfold Entry.started
  split
  · rename_i hr
    exact Entry.narrowsTo_of_ne (fun he => by rw [he] at hr; cases hr) rfl (by simp [freshEntry])
  · exact Entry.narrowsTo_refl e
theorem Entry.narrowsTo_stopped (e : Entry) : e.narrowsTo e.stopped := by
  unfold Entry.stopped
  split
  · rename_i hr
    exact Entry.narrowsTo_of_ne (fun he => by rw [he] at hr; cases hr) rfl (by simp)
  · exact Entry.narrowsTo_refl e

/-- A table with one entry written anew covers no more words than before, when that entry does not. -/
theorem covers_of_updated {s : State} {k j : Index} {e : Entry} {a : Addr}
    (hc : e.covers a = true → (s.entry k).covers a = true)
    (h : (if k = j then e else s.entry j).covers a = true) : (s.entry j).covers a = true := by
  split at h
  · rename_i hk; rw [← hk]; exact hc h
  · exact h

/-- One entry written anew, with words and failure no wider than before; the queue and the device state stay. -/
theorem Narrows.of_entry {s t : State} {k : Index} {e : Entry}
    (he : ∀ j, t.entry j = if k = j then e else s.entry j)
    (hc : ∀ a, e.covers a = true → (s.entry k).covers a = true)
    (hf : e.state = .failed → (s.entry k).state = .failed)
    (hd : t.esc.device = s.esc.device) (hs : t.transit.slots = s.transit.slots) : Narrows s t where
  covers j a h := covers_of_updated (hc a) (by rwa [he] at h)
  failed j h := by
    rw [he] at h
    split at h
    · rename_i hk; rw [← hk]; exact hf h
    · exact h
  device h := by rwa [hd] at h
  waiting := waitsIn_of_eq hs

/-- A change of the state of a group leaves the device state. -/
@[simp] theorem device_setGroupState (s : State) (sel : Byte) (g : GroupState) :
    (s.setGroupState sel g).esc.device = s.esc.device := by
  unfold State.setGroupState
  split <;> rfl

/-- REARM acts on the groups, and not on the device state or the queue (R159). -/
@[simp] theorem device_rearmEntry (k : Index) (s : State) : (rearmEntry k s).esc.device = s.esc.device := by
  unfold rearmEntry
  dsimp only
  split <;> rfl
@[simp] theorem transit_rearmEntry (k : Index) (s : State) : (rearmEntry k s).transit = s.transit := by
  unfold rearmEntry
  dsimp only
  split <;> rfl

/-- The entries of a window event that is due are in SUPERVISE, and not EMPTY (R124, R129, R130). -/
theorem of_late_due {s : State} {k : Index} (h : (s.armingDue k || s.openDue k || s.staleDue k) = true) :
    s.esc.device = .supervise ∧ (s.entry k).state ≠ .empty := by
  simp only [State.armingDue, State.openDue, State.staleDue, State.windowsRun, Bool.or_eq_true, Bool.and_eq_true,
    beq_iff_eq] at h
  rcases h with (⟨⟨hd, -⟩, hs⟩ | ⟨⟨hd, -⟩, hs⟩) | ⟨⟨hd, -⟩, hs⟩ <;> exact ⟨hd, by simp [hs]⟩

/-- The entries after an inspected write cover no more words (R5). -/
theorem WordsApart.acceptWrite {s : State} (h : WordsApart s) (r : WriteRequest) : WordsApart (acceptWrite r s) := by
  refine h.mono fun j a hc => ?_
  rcases entry_acceptWrite r s j with e | ⟨k, -, -, hs, e⟩
  · rwa [e] at hc
  · have hne := EntryState.ne_empty_of_supervised hs
    have hkeep : (entryAfterWrite (s.entry k) r).covers a = true → (s.entry k).covers a = true :=
      Entry.covers_mono (entryAfterWrite_keeps_table hne r).1 fun he => absurd he hne
    rw [e] at hc
    rcases entry_applyInspection k r s j with e | e <;> rw [e] at hc
    · exact covers_of_updated hkeep hc
    · exact covers_of_updated hkeep (by rwa [covers_discardPending] at hc)

/-- The entries after an expiry cover no more words (R5). -/
theorem WordsApart.lateExpiry {s : State} (h : WordsApart s) {k : Index} (hs : (s.entry k).state ≠ .empty) :
    WordsApart (lateExpiry k s) := by
  refine h.mono fun j a hc => ?_
  have hkeep : (s.entry k).late.covers a = true → (s.entry k).covers a = true :=
    Entry.covers_mono (e := s.entry k) (x := (s.entry k).late) rfl fun he => absurd he hs
  rcases entry_lateExpiry k s j with e | e <;> rw [e] at hc
  · exact covers_of_updated hkeep hc
  · exact covers_of_updated hkeep (by rwa [covers_discardPending] at hc)

theorem keeps_queuedWritesSafe : Keeps QueuedWritesSafe :=
  have table := keepsEntry_tableFits.keeps
  { link := fun s c m hm h => h.of_frame rfl rfl rfl
    free := fun s n h => h.of_frame rfl rfl rfl
    offered := fun s o h => h.of_frame rfl rfl rfl
    write := fun s r hc h =>
      ⟨h.apart.acceptWrite r, (table.write s r hc ⟨trivial, h.table⟩).2, issueLaw_acceptWrite hc h⟩
    read := fun s r hc h => h.read hc
    issue := fun s _ h => h.of_slots (by simp) (by simp) fun y hy hd =>
      waitsIn_of_mem (mem_slots_of_issueOldest hy hd) hd
    accept := fun s h => by
      unfold acceptAccess
      split
      · exact h
      · exact h.of_frame rfl rfl rfl
    answer := fun s tag st d h => h.of_slots (entries_takeAnswer tag st d s)
      (by unfold takeAnswer; split <;> rfl) fun y hy => waitsIn_of_takeAnswer hy
    response := fun s h => h.of_slots (entries_takeResponse s)
      (by unfold takeResponse; split <;> [rfl; split <;> rfl])
      fun y hy hd => waitsIn_of_mem (mem_slots_of_takeResponse hy) hd
    prst := fun s b h => h.of_frame rfl rfl rfl
    porst := fun s h => h.of_frame rfl rfl rfl
    processorReset := fun s hp h => by
      refine h.narrow (.of_entries (fun k => ?_) (fun hl => by simpa using hl)
        fun y hy hd => absurd hd (not_decided_of_mem_drainSlots hy)) (table.processorReset s hp ⟨trivial, h.table⟩).2
      rw [entry_drain, entry_rearmEntries]
      split
      · exact Entry.narrowsTo_afterProcessorReset _
      · exact Entry.narrowsTo_refl _
    powerOn := fun s h => h.narrow
      { covers := fun k a hc => by rw [entry_setPorst, entry_powerOnValues, covers_emptyEntry] at hc; cases hc
        failed := fun k hf => by rw [entry_setPorst, entry_powerOnValues] at hf; cases hf
        device := fun hl => by cases hl
        waiting := fun y hy => by cases hy }
      (table.powerOn s ⟨trivial, h.table⟩).2
    divider := fun s n h => h.of_frame rfl rfl rfl
    lower := fun s _ _ h => h.of_frame (by simp) (by simp) (by simp)
    openPhase := fun s k hd h => h.narrow
      (.of_entry (k := k) (fun j => entry_setEntry s k j _) (fun _ => id) id rfl rfl)
      (table.openPhase s k hd ⟨trivial, h.table⟩).2
    late := fun s k hd h => by
      obtain ⟨hdev, hs⟩ := of_late_due hd
      exact ⟨h.apart.lateExpiry hs, (table.late s k hd ⟨trivial, h.table⟩).2,
        issueLaw_lateExpiry h.issue (by simp [hdev]) hs⟩
    arming := fun s w h => h.of_frame rfl rfl rfl
    poison := fun s w _ h => h.of_frame rfl rfl rfl
    alert := fun s b h => h.of_frame rfl rfl rfl
    draft := fun s d _ h => h.of_frame rfl rfl rfl
    install := fun s k hd he hc ho h =>
      ⟨h.apart.install ho, (table.install s k hd he hc ho ⟨trivial, h.table⟩).2, issueLaw_installDraft h.issue hd⟩
    retire := fun s k hd h1 h2 h => h.narrow
      (.of_entry (k := k) (entry_retireEntry k s) (fun a hc => by rw [covers_emptyEntry] at hc; cases hc)
        (fun hf => by cases hf) rfl rfl)
      (table.retire s k hd h1 h2 ⟨trivial, h.table⟩).2
    rearm := fun s k hd h1 h2 h => h.narrow
      (.of_entry (k := k) (entry_rearmEntry k s)
        (fun a => Entry.covers_mono (e := s.entry k) (x := (s.entry k).rearmed) rfl fun he => absurd he h1)
        (fun hf => by cases hf) (by simp) (by simp))
      (table.rearm s k hd h1 h2 ⟨trivial, h.table⟩).2
    start := fun s hd h => h.narrow
      (.of_entries (fun k => by rw [entry_startSupervision]; exact Entry.narrowsTo_started _) (by simp)
        (waitsIn_of_eq (by simp)))
      (table.start s hd ⟨trivial, h.table⟩).2
    stop := fun s hd hn h => h.narrow
      (.of_entries (fun k => by rw [entry_stopSupervision]; exact Entry.narrowsTo_stopped _) (by simp)
        (waitsIn_of_eq (by simp)))
      (table.stop s hd hn ⟨trivial, h.table⟩).2
    lockdown := fun s hd h =>
      ⟨h.apart.mono fun k a hc => by simpa using hc, (table.lockdown s hd ⟨trivial, h.table⟩).2,
        issueLaw_enterLockdown _ fun x hx hp => (h.issue x hx hp).1⟩
    release := fun s sel _ _ h => h.of_frame (by simp) (by simp) (by simp)
    force := fun s sel _ h => h.of_frame (by simp) (by simp) (by simp)
    collect := fun s k _ h => h.of_frame rfl rfl rfl
    softReset := fun s h => h.narrow
      { covers := fun k a hc => by rw [entry_softResetAll, covers_emptyEntry] at hc; cases hc
        failed := fun k hf => by rw [entry_softResetAll] at hf; cases hf
        device := fun hl => by cases hl
        waiting := waitsIn_of_eq rfl }
      (table.softReset s ⟨trivial, h.table⟩).2 }

/-- Settles O53: the operations keep covered words apart, and a write waits at a covered word of no FAILED entry,
because its own entry alone covers the words it reaches and a failure converts the queue. -/
theorem stepKeepsTableAndQueuedWrites : Obligations.StepKeepsTableAndQueuedWrites := by
  intro s t htable hissue hx
  have hs := (queuedWritesSafe_iff s).mpr ⟨htable, hissue⟩
  exact (queuedWritesSafe_iff t).mp (step_preserves keeps_queuedWritesSafe (fun _ _ h => h.of_frame rfl rfl rfl) hx hs)

end Sys2Proof.Machine

/-! PROOF. The resets, the commands on the table and the writes that are not inspected. -/
namespace Sys2Proof.Machine

/-! ### Resets (R24, R43, R45, R191) -/

/-- Outside SUPERVISE a processor-side reset leaves the table and the windows (R24). -/
theorem rearmEntries_of_not_supervise {s : State} (h : s.esc.device ≠ .supervise) : rearmEntries s = s := by
  rw [rearmEntries, show (s.esc.device == .supervise) = false by simpa using h, onlyIf_false]

theorem rearmedByReset_iff (st : EntryState) : st.rearmedByReset = true ↔ st = .armed ∨ st = .live ∨ st = .stale := by
  cases st <;> simp [EntryState.rearmedByReset]

/-- The arming window runs at a TIMED entry with a period (R123). -/
theorem armingWindowFor_eq (d : Definition) (a : ArmingWindow) :
    armingWindowFor d a = if d.arming = .timed ∧ d.period ≠ .none then ⟨.arming, a.ms⟩ else ⟨.stopped, 0⟩ := by
  simp [armingWindowFor, Definition.hasPeriod, stoppedWindow]

/-- Settles O6: the re-arm of each record and the drain, by their laws. -/
theorem processorSideReset : Obligations.ProcessorSideReset := by
  constructor
  · intro s h
    simp [exec, execProcessorSideReset, h]
  · intro s h
    refine ⟨drain (rearmEntries (s.setPrst true)), by simp [exec, execProcessorSideReset, h], by simp, ?_, ?_, by simp,
      by simp, by simp, by simp, by simp, by simp, by simp, fun hd => ?_, fun hd k => ?_⟩
    · rw [slots_drain, transit_rearmEntries]; rfl
    · rw [draining_drain, slots_drain]; simp
    · rw [rearmEntries_of_not_supervise (by simpa using hd)]; exact ⟨rfl, rfl⟩
    · have hd' : (s.setPrst true).esc.device = .supervise := hd
      rw [entry_drain, entry_rearmEntries, if_pos hd', window_drain, window_rearmEntries, if_pos hd']
      simp only [entry_setPrst, window_setPrst, mlc_setPrst, Entry.afterProcessorReset, windowAfterProcessorReset,
        rearmedByReset_iff, armingWindowFor_eq]
      split
      · exact ⟨rfl, rfl⟩
      · exact ⟨rfl, rfl⟩

/-- Settles O7: the frame is received, and the soft reset writes its blocks alone. -/
theorem softResetLeavesTheBusSides : Obligations.SoftResetLeavesTheBusSides := by
  intro s sel arg hr
  refine ⟨softResetAll (received 0x3F#8 sel arg s), ?_, pins_received_of_ready hr _ _ _, rfl, rfl, rfl, rfl, rfl,
    fun k => ⟨by simp, by simp, by simp⟩, rfl, rfl, rfl, rfl, rfl, fun k => ⟨failed_resetGroup k, failed_resetGroup k⟩,
    rfl, rfl, rfl, rfl, rfl, rfl, rfl⟩
  exact congrArg _ (takeCommand_of_ready hr _ _ _ _)

/-! ### INSTALL, RETIRE and REARM (R13 to R21) -/

/-- An index command that is admitted, in a frame that its row carries whole, runs at its entry. -/
theorem takeIndexCommand_of_ready {s : State} (h : s.linkReady) {code sel : Byte} {k : Index} (hk : sel.toNat = k.val)
    (ha : admits code sel s.esc.device = true) (arg : Bytes8) (run : Index → State → State) :
    takeCommand code (fun v _ => checkedIndex code v run) sel arg s = run k (received code sel arg s) := by
  rw [takeCommand_of_ready h, checkedIndex_of_ok (by rwa [esc_received]) hk]

/-- INSTALL, RETIRE and LOCKDOWN are admitted outside LOCKDOWN (R182). -/
theorem admits_of_ne_lockdown {d : DeviceState} (hd : d ≠ .lockdown) (sel : Byte) :
    admits 0x13#8 sel d = true ∧ admits 0x14#8 sel d = true ∧ admits 0x22#8 sel d = true := by
  cases d with
  | configure | supervise => exact ⟨rfl, rfl, rfl⟩
  | lockdown => exact absurd rfl hd

/-- The draft overlaps the table when an entry covers one of its words (R15). -/
theorem draftOverlaps_iff (s : State) (d : Definition) : s.draftOverlaps d = true ↔
    ∃ j a, (s.entry j).covers a = true ∧ (a = d.base ∨ d.format = .real64 ∧ a = d.base + 1) := by
  constructor
  · intro h
    simp only [State.draftOverlaps, List.any_eq_true, Bool.and_eq_true, bne_iff_ne, Definition.overlaps,
      Bool.or_eq_true, beq_iff_eq] at h
    obtain ⟨j, -, hs, ho | ⟨hf, ho⟩⟩ := h
    · exact ⟨j, d.base, by simp [Entry.covers, hs, ho], .inl rfl⟩
    · exact ⟨j, d.base + 1, by rw [Entry.covers, ho]; simp [hs], .inr ⟨hf, rfl⟩⟩
  · rintro ⟨j, a, hc, ha⟩
    by_contra hn
    rw [Bool.not_eq_true] at hn
    have hd : d.covers a = true := by simpa [Definition.covers] using ha
    rw [not_covers_of_draftOverlaps hn hd j] at hc
    cases hc

/-- Settles O40: the checks of INSTALL one after the other, and the installed entry. -/
theorem installEffects : Obligations.InstallEffects := by
  intro s k sel arg hr hk hd t d overlaps
  have hx : exec (.install sel arg) s = .next (install k t) :=
    congrArg _ (takeIndexCommand_of_ready hr hk (admits_of_ne_lockdown hd sel).1 arg install)
  have hentry : t.entry k = s.entry k := rfl
  have hdraft : t.mlc.draft = d := rfl
  have hover : t.draftOverlaps d = true ↔ overlaps := draftOverlaps_iff t d
  rw [hx]
  refine ⟨fun hs => ?_, fun hs hc => ?_, fun hs hc ho => ?_, fun hs hc ho => ?_⟩
  · simp [install, hentry, hs, refuse]
  · simp [install, hentry, hs, hdraft, hc, refuse]
  · simp [install, hentry, hs, hdraft, hc, hover.mpr ho, refuse]
  · have hno : t.draftOverlaps d = false := by
      rw [← Bool.not_eq_true, hover]; exact ho
    have hi : install k t = reply 0x13#8 0 (installDraft k t) := by simp [install, hentry, hs, hdraft, hc, hno]
    rw [hi]
    have hdev : t.esc.device = s.esc.device := rfl
    constructor <;> intro hst
    · simp only [installDraft, hdev, hst]; rfl
    · simp only [installDraft, hdev, hst]; rfl

/-- Settles O41, by the state of the entry. -/
theorem retireEffects : Obligations.RetireEffects := by
  intro s k sel arg hr hk hd t
  have hx : exec (.retire sel arg) s = .next (retire k t) :=
    congrArg _ (takeIndexCommand_of_ready hr hk (admits_of_ne_lockdown hd sel).2.1 arg retire)
  have hentry : t.entry k = s.entry k := rfl
  rw [hx]
  refine ⟨fun hs => ?_, fun hs => ?_, fun he hf => ?_⟩
  · simp only [retire, hentry, hs]; rfl
  · simp only [retire, hentry, hs]; rfl
  · have hi : retire k t = reply 0x14#8 0 (retireEntry k t) := by
      unfold retire
      rw [hentry]
      cases hs : (s.entry k).state with
      | empty => exact absurd hs he
      | failed => exact absurd hs hf
      | defined | armed | live | stale => rfl
    rw [hi]; rfl

/-- No member is left failed once entry `k` has left the set, exactly when no other was (R159). -/
theorem noneFailed_set_iff (f : Vector Bool 64) (k : Index) :
    noneFailed (f.set k false) = true ↔ ∀ j : Index, j ≠ k → f[j] = false := by
  simp only [noneFailed, List.all_eq_true, mem_indices, true_implies, Bool.not_eq_true', getElem_set_index]
  refine forall_congr' fun j => ?_
  by_cases hj : k = j
  · simp [hj]
  · simp [hj, Ne.symm hj]

/-- A REARM completion takes the index out of the set, and a TRIPPED group with none left is LATCHED (R159). -/
theorem memberRearmed_eq (g : Group) (k : Index) : g.memberRearmed k =
    ⟨if g.state = .tripped ∧ ∀ j : Index, j ≠ k → g.failed[j] = false then .latched else g.state,
      g.failed.set k false⟩ := by
  simp only [Group.memberRearmed, Bool.and_eq_true, noneFailed_set_iff, beq_iff_eq, and_comm]

/-- Settles O42, by the state of the entry; the groups by `memberRearmed_eq`. -/
theorem rearmEffects : Obligations.RearmEffects := by
  intro s k sel arg hr hk hd t e without
  have hx : exec (.rearm sel arg) s = .next (rearm k t) :=
    congrArg _ (takeIndexCommand_of_ready hr hk (by rw [hd]; rfl) arg rearm)
  have hentry : t.entry k = e := rfl
  have hwithout : ∀ g : Group, without g = g.memberRearmed k := fun g => (memberRearmed_eq g k).symm
  rw [hx]
  refine ⟨fun hs => ?_, fun he hdef => ?_⟩
  · unfold rearm
    rw [hentry]
    rcases hs with hs | hs <;> rw [hs] <;> rfl
  · have hi : rearm k t = reply 0x15#8 0 (rearmEntry k t) := by
      unfold rearm
      rw [hentry]
      cases hs : e.state with
      | empty => exact absurd hs he
      | defined => exact absurd hs hdef
      | armed | live | stale | failed => rfl
    rw [hi]
    simp only [hwithout]
    unfold rearmEntry
    dsimp only
    rw [hentry]
    by_cases hf : e.state = .failed
    · rw [if_pos (by simpa using hf), if_pos hf]; rfl
    · rw [if_neg (by simpa using hf), if_neg hf]; rfl

/-! ### START, STOP and LOCKDOWN (R17, R18, R149 to R153) -/

theorem stops_iff (st : EntryState) : st.stops = true ↔ st = .armed ∨ st = .live ∨ st = .stale := by
  cases st <;> simp [EntryState.stops]

theorem anyFailed_iff (s : State) : s.anyFailed = true ↔ ∃ k, (s.entry k).state = .failed := by
  simp [State.anyFailed, mem_indices]

/-- A reply leaves every record as it was. -/
@[simp] theorem entry_reply (code : Byte) (d : Bytes8) (s : State) (k : Index) :
    (reply code d s).entry k = s.entry k := rfl
@[simp] theorem window_reply (code : Byte) (d : Bytes8) (s : State) (k : Index) :
    (reply code d s).window k = s.window k := rfl

/-- START and STOP leave the blocks of the other commands as they were, and so does the reply. -/
def keepsAtStartStop (s t : State) : Prop :=
  t.pins = s.pins ∧ t.transit = s.transit ∧ t.msi = s.msi ∧ t.timer.divider = s.timer.divider ∧
  t.events = s.events ∧ t.esc.reason = s.esc.reason ∧ t.esc.groupA = s.esc.groupA ∧ t.esc.groupB = s.esc.groupB ∧
  t.mlc.draft = s.mlc.draft ∧ t.mlc.buffer = s.mlc.buffer ∧ t.mlc.armingWindow = s.mlc.armingWindow ∧
  t.mlc.poison = s.mlc.poison ∧ t.mlc.alertEnable = s.mlc.alertEnable ∧ t.mlc.startCause = s.mlc.startCause ∧
  t.pending = s.pending

theorem keepsAtStartStop_start {s : State} (hr : s.linkReady) (code sel : Byte) (arg d : Bytes8) :
    keepsAtStartStop s (reply code d (startSupervision (received code sel arg s))) := by
  have hpins := pins_received_of_ready hr code sel arg
  refine ⟨?_, ?_, ?_, ?_, ?_, ?_, ?_, ?_, ?_, ?_, ?_, ?_, ?_, ?_, ?_⟩ <;> simp [mlc_reply, hpins]

theorem keepsAtStartStop_stop {s : State} (hr : s.linkReady) (code sel : Byte) (arg d : Bytes8) :
    keepsAtStartStop s (reply code d (stopSupervision (received code sel arg s))) := by
  have hpins := pins_received_of_ready hr code sel arg
  refine ⟨?_, ?_, ?_, ?_, ?_, ?_, ?_, ?_, ?_, ?_, ?_, ?_, ?_, ?_, ?_⟩ <;> simp [mlc_reply, hpins]

/-- An admitted command without operands, in a frame that its row carries whole, runs. -/
theorem takeChecked_of_ready {s : State} (h : s.linkReady) {code sel : Byte} (ha : admits code sel s.esc.device = true)
    (arg : Bytes8) (run : State → State) :
    takeCommand code (fun v _ => checked code v true run) sel arg s = run (received code sel arg s) := by
  rw [takeCommand_of_ready h, checked_of_ok (by rwa [esc_received]) rfl]

/-- STOP with an entry FAILED is refused (R18, R150). -/
theorem stop_of_failed {s : State} (h : ∃ k, (s.entry k).state = .failed) : stop s = refuse 0x21#8 .failPresent s := by
  rw [stop, if_pos ((anyFailed_iff s).mpr h)]
theorem stop_of_none_failed {s : State} (h : ∀ k, (s.entry k).state ≠ .failed) :
    stop s = reply 0x21#8 0 (stopSupervision s) := by
  rw [stop, if_neg (fun hf => let ⟨k, hk⟩ := (anyFailed_iff s).mp hf; h k hk)]

/-- Settles O43: what each command does to one entry and its window, and `keepsAtStartStop` for the rest. -/
theorem startAndStopEffects : Obligations.StartAndStopEffects := by
  intro s sel arg hr keeps
  have hstop : s.esc.device = .supervise → exec (.stop sel arg) s = .next (stop (received 0x21#8 sel arg s)) :=
    fun hd => congrArg _ (takeChecked_of_ready hr (by rw [hd]; rfl) _ _)
  refine ⟨fun hd => ?_, fun hd hf => ?_, fun hd hf => ?_⟩
  · have hx : exec (.start sel arg) s = .next (reply 0x20#8 0 (startSupervision (received 0x20#8 sel arg s))) :=
      congrArg _ (takeChecked_of_ready hr (by rw [hd]; rfl) _ _)
    refine ⟨_, hx, keepsAtStartStop_start hr _ _ _ _, by simp, by simp [mlc_reply], fun k => ?_⟩
    simp only [entry_reply, window_reply, entry_startSupervision, window_startSupervision, entry_received,
      window_received, armingWindow_received, Entry.started, windowAtStart, beq_iff_eq]
    split
    · exact ⟨rfl, rfl⟩
    · exact ⟨rfl, rfl⟩
  · rw [hstop hd, stop_of_failed (by simpa using hf)]
    exact ⟨_, rfl, sameButLink_refuse (sameButLink_received hr _ _ _) _ _, rfl⟩
  · rw [hstop hd, stop_of_none_failed (by simpa using hf)]
    refine ⟨_, rfl, keepsAtStartStop_stop hr _ _ _ _, by simp, by simp [mlc_reply], fun k => ?_⟩
    simp only [entry_reply, window_reply, entry_stopSupervision, window_stopSupervision, entry_received,
      window_received, Entry.stopped, windowAtStop, stops_iff]
    split
    · exact ⟨rfl, rfl⟩
    · exact ⟨rfl, rfl⟩

/-- Settles O45: the entry into LOCKDOWN at the state in which the frame was received. -/
theorem lockdownCommandEffects : Obligations.LockdownCommandEffects := by
  intro s sel arg hr hd
  have hx : exec (.lockdown sel arg) s =
      .next (reply 0x22#8 0 (enterLockdown .monitor (received 0x22#8 sel arg s))) :=
    congrArg _ (takeChecked_of_ready hr (admits_of_ne_lockdown hd sel).2.2 _ _)
  have hconvert : convertForLockdown (received 0x22#8 sel arg s) = convertForLockdown s :=
    convertForLockdown_congr (fun _ => rfl) (fun _ => rfl) rfl
  have hpins := pins_received_of_ready hr 0x22#8 sel arg
  refine ⟨_, hx, ?_, fun k => ?_, ?_, ?_, ?_, ?_, ?_, ?_, ?_, ?_, ?_, ?_, ?_, ?_, ?_, ?_⟩
  · rw [esc_reply, esc_enterLockdown, esc_received]; rfl
  · rw [entry_reply, entry_enterLockdown, entry_received]; rfl
  · rw [transit_reply, slots_enterLockdown, hconvert, transit_received]
  all_goals simp [mlc_reply, hpins]

/-! ### Writes that are not inspected (R5, R6, R28, R48, R49, R53) -/

/-- Settles O9: the lookup's laws, and one slot placed for each way past the inspection. -/
theorem uninspectedWrites : Obligations.UninspectedWrites := by
  refine ⟨fun e a => e.covers_iff a, fun s a => lookup_eq_none, fun s a k h => lookup_eq_some h.1, fun s r ht => ?_⟩
  have hlookup : (s.setOffered none).lookup r.addr = s.lookup r.addr := lookup_congr rfl _
  rw [exec_write_of_takes ht]
  refine ⟨fun hd => ?_, fun hd hl => ?_, fun k hl hd => ?_⟩
  · have hn := (noneDecided_of_canAccept ht.1 hd).1
    have ha : acceptWrite r (s.setOffered none) = placeIssued (writeSlot r (s.lookup r.addr)) (s.setOffered none) := by
      simp only [acceptWrite, esc_setOffered, hd, hlookup]
    rw [ha, placeIssued_eq rfl (by simpa using hn)]
    rfl
  · have ha : acceptWrite r (s.setOffered none) = placeSlot (writeSlot r none) (s.setOffered none) := by
      cases hdev : s.esc.device with
      | configure => exact absurd hdev hd
      | supervise | lockdown => simp only [acceptWrite, esc_setOffered, hdev, hlookup, hl]
    rw [ha]
    rfl
  · rcases hd with hd | ⟨hd, hf⟩
    · have ha : acceptWrite r (s.setOffered none) =
          placeSlot ((writeSlot r (some k)).toDropped k (s.entry k).defn) (s.setOffered none) := by
        simp only [acceptWrite, esc_setOffered, hd, hlookup, hl, entry_setOffered]
      rw [ha]
      rfl
    · have hs : ((s.setOffered none).entry k).state.supervised = true := by rw [entry_setOffered, hf]; rfl
      rw [acceptWrite_of_supervised (s := s.setOffered none) hd (hlookup.trans hl) hs, entry_setOffered,
        show inspect (s.entry k) r = droppedFailed (s.entry k) r by simp [inspect, hf],
        applyInspection_of_quiet rfl rfl rfl rfl rfl rfl rfl]
      have hsame : applyTiming k (droppedFailed (s.entry k) r) (s.setOffered none) = s.setOffered none :=
        setEntry_self (s.setOffered none) k
      rw [hsame]
      rfl

end Sys2Proof.Machine

/-! PROOF. The values after reset, the lengths of the windows, the warning stage and the consistency of a draft. -/
namespace Sys2Proof.Machine

/-! ### The state after reset -/

@[simp] theorem entry_reset (k : Index) : State.reset.entry k = emptyEntry := by simp [State.reset, State.entry]
@[simp] theorem window_reset (k : Index) : State.reset.window k = stoppedWindow := by simp [State.reset, State.window]
@[simp] theorem latch_reset (k : Index) : State.reset.latch k = clearedLatch := by
  simp [State.reset, State.latch, resetEvents]

/-- Settles O4: the fields by evaluation, the 64 records by their lemmas. -/
theorem resetValues : Obligations.ResetValues := by
  refine ⟨⟨rfl, rfl, fun k => ⟨by simp, by simp, by simp⟩, rfl, rfl, rfl, rfl, rfl, rfl, fun k => ?_, rfl, rfl, rfl,
    rfl, rfl, rfl, rfl, rfl⟩, rfl, rfl, rfl, rfl, rfl, rfl, rfl, rfl, rfl⟩
  exact ⟨failed_resetGroup k, failed_resetGroup k⟩

/-- An EMPTY entry covers no word, so no two do. -/
theorem tableLaw_reset : TableLaw State.reset := by
  refine (tableLaw_iff _).mpr ⟨fun i j a hi => ?_, fun k => ?_⟩
  · rw [entry_reset, covers_emptyEntry] at hi; cases hi
  · rw [entry_reset]; exact tableFits_emptyEntry

/-- The entry laws hold of the EMPTY entries of the reset state. -/
theorem entryLaws_reset : (RangeLaw State.reset ∧ CounterLaw State.reset) ∧ WarnLaw State.reset ∧
    PendingLaw State.reset ∧ LastGoodLaw State.reset := by
  refine ⟨(rangeLaw_and_counterLaw_iff _).mpr ⟨inRange_draftDefaults, fun k => ?_⟩, fun k => ?_, fun k p hp => ?_,
    fun k v hv => ?_⟩
  · rw [entry_reset]; exact keepsEntry_counterFits.empty
  · rw [entry_reset]; exact keepsEntry_warnFits.empty
  · rw [entry_reset] at hp; cases hp
  · rw [entry_reset] at hv; cases hv

/-- Every window is STOPPED with its EMPTY entry, and every latch is cleared. -/
theorem windowLaw_reset : WindowLaw State.reset := by
  intro k
  rw [entry_reset, window_reset]
  rfl

theorem deviceLaw_reset : DeviceLaw State.reset := by
  refine ⟨fun _ k => .inl ?_, fun h => ?_, iff_of_true rfl ?_, fun k h => ?_⟩
  · rw [entry_reset]; rfl
  · cases h
  · intro h; cases h
  · cases h

/-- The groups are LATCHED after reset, with no member failed (R148, R157). -/
theorem groupLaw_reset : GroupLaw State.reset := by
  have hnone : ¬ (State.reset.esc.device = .lockdown ∨ ∃ k : Index, resetGroup.failed[k] = true) := by
    rintro (h | ⟨k, hk⟩)
    · cases h
    · rw [failed_resetGroup] at hk; cases hk
  refine ⟨fun k => ?_, fun k => ?_, iff_of_false (fun h => ?_) hnone, iff_of_false (fun h => ?_) hnone⟩
  · rw [entry_reset]; exact failed_resetGroup k
  · rw [entry_reset]; exact failed_resetGroup k
  · cases h
  · cases h

theorem attentionLaw_reset : AttentionLaw State.reset := by
  refine ⟨List.nodup_nil, fun k => ?_, fun k _ => latch_reset k, fun k _ => ?_⟩
  · rw [latch_reset, entry_reset]
    exact iff_of_false List.not_mem_nil (fun h => h (by decide))
  · rw [latch_reset]; rfl

/-- The queue is empty after reset, and nothing is in flight. -/
theorem queueLaw_reset : QueueLaw State.reset :=
  ⟨Nat.zero_le _, List.nodup_nil, fun x hx => absurd hx List.not_mem_nil, fun n hn => absurd hn (Nat.lt_irrefl 0),
    fun h => by cases h⟩
theorem issueLaw_reset : IssueLaw State.reset := fun _ hx => absurd hx List.not_mem_nil

/-- Settles O51, law by law. -/
theorem resetMeetsTheLaws : Obligations.ResetMeetsTheLaws := by
  obtain ⟨⟨hrange, hcounter⟩, hwarn, hpending, hgood⟩ := entryLaws_reset
  exact ⟨hrange, hcounter, hwarn, tableLaw_reset, issueLaw_reset, hpending, hgood, windowLaw_reset, deviceLaw_reset,
    groupLaw_reset, attentionLaw_reset, queueLaw_reset, fun h => by cases h⟩

/-! ### Windows (R122 to R125) -/

theorem periodMs_pos {d : Definition} (h : d.period ≠ .none) : 0 < d.periodMs := by
  unfold Definition.periodMs
  cases hp : d.period with
  | none => exact absurd hp h
  | ms1 | ms2 | ms5 | ms10 | ms20 | ms50 | ms100 | ms200 | ms500 | ms1000 => decide

/-- Settles O29. The closed window is a quarter count of the period, so 0, 25, 50 or 75 hundredths of it. -/
theorem windowLengths : Obligations.WindowLengths := by
  refine ⟨fun s k => ⟨?_, ?_, ?_⟩, fun d => ⟨?_, fun hp => ?_⟩, fun d => ?_, fun d a => ?_⟩
  · simp [State.armingDue, State.windowsRun, and_assoc]
  · simp [State.openDue, State.windowsRun, and_assoc]
  · simp [State.staleDue, State.windowsRun, and_assoc]
  · unfold Definition.closedMs
    cases d.closedFraction <;> simp only [ClosedFraction.quarters] <;> omega
  · by_cases hc : d.closedMs = 0
    · rw [hc]; exact periodMs_pos hp
    · exact closedMs_lt_periodMs hc
  · unfold Definition.periodMs
    cases d.period <;> rfl
  · rw [armingWindowFor_eq]
    cases a <;> rfl

/-! ### The warning stage (R94 to R100) -/

/-- A value is outside a band when it is below a present low side or above a present high side (R83, R94). -/
theorem outsideBand_eq (lo hi : Option Num) (x : Num) :
    outsideBand lo hi x = (lo.any (fun l => x.below l) || hi.any fun h => h.below x) := by
  cases lo <;> cases hi <;> rfl

/-- The return band is the warn band with each present side moved inwards by the hysteresis (R95). -/
theorem withinReturnBand_eq (d : Definition) (x : Num) : withinReturnBand d x =
    ((d.warnLow.number d.format).all (fun l => !x.below (l.plus d.hysteresisAmount)) &&
      (d.warnHigh.number d.format).all fun h => !(h.plus (-d.hysteresisAmount)).below x) := by
  rw [withinReturnBand, outsideBand_eq, Bool.not_or]
  cases d.warnLow.number d.format <;> cases d.warnHigh.number d.format <;> rfl

/-- The hysteresis of a real format is its binary64 number, of another format its integer (R4). -/
theorem hysteresisAmount_eq (d : Definition) : d.hysteresisAmount = match d.format with
    | .real32 | .real64 => (match num64 d.hysteresis with
      | .fin h => h
      | .negInf | .posInf | .nan => 0)
    | .unsigned | .signed | .sequence | .flags => d.hysteresis.toInt := by
  unfold Definition.hysteresisAmount
  cases d.format <;> rfl

/-- The next condition: outside the warn band it is OUTSIDE, and it returns to INSIDE within the return band (R96). -/
theorem nextWarn_of_out {d : Definition} {x : Num}
    (h : outsideBand (d.warnLow.number d.format) (d.warnHigh.number d.format) x = true) (w : WarnCondition) :
    nextWarn d w x = .outside := by
  simp [nextWarn, h]
theorem nextWarn_inside {d : Definition} {x : Num}
    (h : outsideBand (d.warnLow.number d.format) (d.warnHigh.number d.format) x = false) :
    nextWarn d .inside x = .inside := by
  simp [nextWarn, h]
theorem nextWarn_outside {d : Definition} {x : Num}
    (h : outsideBand (d.warnLow.number d.format) (d.warnHigh.number d.format) x = false) :
    nextWarn d .outside x = if withinReturnBand d x = true then .inside else .outside := by
  simp [nextWarn, h]

/-- A value outside the warn band: OUTSIDE, with a notice in LEVEL always, in EDGE at the crossing, and in SINGLE at the
first crossing (R96, R98, R99, R100). -/
theorem warnStage_of_out {d : Definition} {x : Num} (hx : x ≠ .nan)
    (h : outsideBand (d.warnLow.number d.format) (d.warnHigh.number d.format) x = true) (w : WarnCondition)
    (fired : Bool) : warnStage d w fired x = match d.alarmMode with
      | .level => ⟨.outside, fired, 0x0200#16⟩
      | .edge => ⟨.outside, fired, if w = .inside then 0x0200#16 else 0⟩
      | .single => ⟨.outside, fired || w == .inside, if w = .inside ∧ fired = false then 0x0200#16 else 0⟩ := by
  rw [warnStage, if_neg (by simpa using hx)]
  dsimp only
  rw [nextWarn_of_out h, h]
  cases d.alarmMode with
  | level => cases w <;> rfl
  | edge => cases w <;> rfl
  | single => cases w <;> cases fired <;> rfl

/-- A value within the warn band leaves INSIDE as it was (R96). -/
theorem warnStage_of_inside {d : Definition} {x : Num} (hx : x ≠ .nan)
    (h : outsideBand (d.warnLow.number d.format) (d.warnHigh.number d.format) x = false) (fired : Bool) :
    warnStage d .inside fired x = ⟨.inside, fired, 0⟩ := by
  rw [warnStage, if_neg (by simpa using hx)]
  dsimp only
  rw [nextWarn_inside h, h]
  cases d.alarmMode with
  | level | edge => rfl
  | single => cases fired <;> rfl

/-- A value within the warn band ends OUTSIDE when it is within the return band, with a notice but in SINGLE (R96, R98,
R99, R100). -/
theorem warnStage_of_outside {d : Definition} {x : Num} (hx : x ≠ .nan)
    (h : outsideBand (d.warnLow.number d.format) (d.warnHigh.number d.format) x = false) (fired : Bool) :
    warnStage d .outside fired x = if withinReturnBand d x = true
      then ⟨.inside, fired, if d.alarmMode = .single then 0 else 0x0400#16⟩ else ⟨.outside, fired, 0⟩ := by
  rw [warnStage, if_neg (by simpa using hx)]
  dsimp only
  rw [nextWarn_outside h, h]
  cases withinReturnBand d x <;> cases d.alarmMode with
  | level | edge => rfl
  | single => cases fired <;> rfl

/-- Settles O20: a NaN is passed by, and else by where the value lies and what the condition was. -/
theorem warningStageTable : Obligations.WarningStageTable := by
  intro d w fired x hysteresis shifted low high out back r
  have hout : out = outsideBand low high x := (outsideBand_eq low high x).symm
  have hamount : hysteresis = d.hysteresisAmount := (hysteresisAmount_eq d).symm
  have hshift : shifted = Num.plus := by
    funext l n
    cases l <;> rfl
  have hback : back = withinReturnBand d x := by
    rw [withinReturnBand_eq, ← hamount, ← hshift]
  refine ⟨fun hx => ?_, fun hx => ?_⟩
  · show warnStage d w fired x = _
    rw [hx]; rfl
  · rw [hback]
    cases ho : outsideBand low high x with
    | true =>
      rw [hout, ho, show r = _ from warnStage_of_out hx ho w fired]
      cases d.alarmMode <;> cases w <;> cases fired <;> simp
    | false =>
      rw [hout, ho]
      cases w with
      | inside =>
        rw [show r = _ from warnStage_of_inside hx ho fired]
        simp
      | outside =>
        rw [show r = _ from warnStage_of_outside hx ho fired]
        cases withinReturnBand d x <;> cases d.alarmMode <;> simp

/-! ### The consistency of a draft (R4, R14) -/

/-- The draft is consistent exactly when a REAL64 base is even and a numeric format passes each check of R14. -/
theorem consistent_iff (d : Definition) : d.consistent = true ↔
    (d.format = .real64 → d.base.getLsbD 0 = false) ∧
    (d.format.numeric = true → d.hardLow.valid d.format = true ∧ d.hardHigh.valid d.format = true ∧
      d.warnLow.valid d.format = true ∧ d.warnHigh.valid d.format = true ∧
      hysteresisValid d.format d.hysteresis = true ∧ orderedLimits d.format d.hardLow d.hardHigh = true ∧
      orderedLimits d.format d.warnLow d.warnHigh = true ∧ hysteresisFits d = true) := by
  simp only [Definition.consistent, Bool.and_eq_true, Bool.or_eq_true, bne_iff_ne, Bool.not_eq_true', and_assoc,
    ne_eq]
  refine and_congr ?_ ?_
  · tauto
  · cases d.format.numeric <;> simp

/-- A limit is valid when it is absent or its bytes are (R14). -/
theorem valid_iff (f : Format) (l : Limit) :
    l.valid f = true ↔ (l.present = true → limitBytesValid f l.bytes = true) := by
  unfold Limit.valid
  cases l.present <;> simp

/-- Limits are in order when, both present, the high one is not below the low one (R14). -/
theorem orderedLimits_iff (f : Format) (lo hi : Limit) : orderedLimits f lo hi = true ↔
    (lo.present = true → hi.present = true → (readLimit f hi.bytes).below (readLimit f lo.bytes) = false) := by
  unfold orderedLimits Limit.number
  cases lo.present <;> cases hi.present <;> simp

/-- The hysteresis fits when, both warn limits present and finite, twice of it is not above their difference (R14). -/
theorem hysteresisFits_iff (d : Definition) : hysteresisFits d = true ↔
    (d.warnLow.present = true → d.warnHigh.present = true → ∀ a b, readLimit d.format d.warnLow.bytes = .fin a →
      readLimit d.format d.warnHigh.bytes = .fin b → 2 * d.hysteresisAmount ≤ b - a) := by
  unfold hysteresisFits Limit.number
  cases d.warnLow.present with
  | false => simp
  | true =>
    cases d.warnHigh.present with
    | false => simp
    | true =>
      cases readLimit d.format d.warnLow.bytes <;> cases readLimit d.format d.warnHigh.bytes <;> simp

/-- The same where both limits are read as finite numbers. -/
theorem hysteresisFits_of_fin {d : Definition} {a b : Int} (ha : readLimit d.format d.warnLow.bytes = .fin a)
    (hb : readLimit d.format d.warnHigh.bytes = .fin b) : hysteresisFits d = true ↔
      (d.warnLow.present = true → d.warnHigh.present = true → 2 * d.hysteresisAmount ≤ b - a) := by
  rw [hysteresisFits_iff, ha, hb]
  simp

/-- A real hysteresis is valid when it is finite and not negative (R4). -/
theorem hysteresisValid_of_real {f : Format} (hf : f = .real32 ∨ f = .real64) (b : Bytes8) :
    hysteresisValid f b = true ↔ ∃ h : Int, num64 b = .fin h ∧ 0 ≤ h := by
  rcases hf with rfl | rfl <;> unfold hysteresisValid <;> cases num64 b <;> simp

/-- What R4 asks of a limit of an integer format. -/
theorem limitBytesValid_of_integer {f : Format} (hf : f = .unsigned ∨ f = .signed) (b : Bytes8) :
    limitBytesValid f b = true ↔ if f = .unsigned then 0 ≤ b.toInt ∧ b.toInt ≤ 4294967295
      else -2147483648 ≤ b.toInt ∧ b.toInt ≤ 2147483647 := by
  rcases hf with rfl | rfl <;> simp [limitBytesValid]

/-- What R4 asks of a limit of a real format. -/
theorem limitBytesValid_of_real {f : Format} (hf : f = .real32 ∨ f = .real64) (b : Bytes8) :
    limitBytesValid f b = true ↔ num64 b ≠ .nan := by
  rcases hf with rfl | rfl <;> simp [limitBytesValid]

theorem readLimit_of_integer {f : Format} (hf : f = .unsigned ∨ f = .signed) (b : Bytes8) :
    readLimit f b = .fin b.toInt := by
  rcases hf with rfl | rfl <;> rfl
theorem readLimit_of_real {f : Format} (hf : f = .real32 ∨ f = .real64) (b : Bytes8) : readLimit f b = num64 b := by
  rcases hf with rfl | rfl <;> rfl

theorem hysteresisValid_of_integer {f : Format} (hf : f = .unsigned ∨ f = .signed) (b : Bytes8) :
    hysteresisValid f b = true ↔ 0 ≤ b.toInt ∧ b.toInt ≤ 4294967295 := by
  rcases hf with rfl | rfl <;> simp [hysteresisValid]

theorem below_fin (a b : Int) : (Num.fin a).below (.fin b) = false ↔ b ≤ a := by simp [Num.below]

/-- Settles O39: for each format, each check of R14 in its own words. -/
theorem draftConsistency : Obligations.DraftConsistency := by
  refine ⟨?integer, ?real, ?plain⟩
  case integer =>
    intro d hf inRange
    have hpair : d.format ≠ .real64 := by rcases hf with hf | hf <;> simp [hf]
    have hnumeric : d.format.numeric = true := by rcases hf with hf | hf <;> rw [hf] <;> rfl
    have hamount : d.hysteresisAmount = d.hysteresis.toInt := by
      rw [Definition.hysteresisAmount, readLimit_of_integer hf]
    have hvalid : ∀ l : Limit, l.valid d.format = true ↔ inRange l := fun l => by
      rw [valid_iff, limitBytesValid_of_integer hf]
    simp only [consistent_iff, hpair, hnumeric, hvalid, hysteresisValid_of_integer hf, orderedLimits_iff,
      hysteresisFits_of_fin (readLimit_of_integer hf _) (readLimit_of_integer hf _), readLimit_of_integer hf, below_fin,
      hamount, false_implies, true_implies, true_and, and_assoc, imp_and]
  case real =>
    intro d hf isNumber
    have hnumeric : d.format.numeric = true := by rcases hf with hf | hf <;> rw [hf] <;> rfl
    have hvalid : ∀ l : Limit, l.valid d.format = true ↔ isNumber l := fun l => by
      rw [valid_iff, limitBytesValid_of_real hf]
    simp only [consistent_iff, hnumeric, hvalid, hysteresisValid_of_real hf, orderedLimits_iff, hysteresisFits_iff,
      readLimit_of_real hf, true_implies, imp_and, Definition.hysteresisAmount]
    cases hn : num64 d.hysteresis with
    | fin h => simp
    | negInf | posInf | nan => simp
  case plain =>
    intro d hf
    rw [consistent_iff]
    rcases hf with hf | hf <;> simp [hf, Format.numeric]

end Sys2Proof.Machine

/-! PROOF. The pass-through path and the Transit Queue: the law of the queue, acceptance, placement, issue, answers,
responses and conversions. -/
namespace Sys2Proof.Machine

/-! ### Acceptance and the free slot (R27, R28, R193, R194) -/

/-- When a request is accepted, condition by condition. -/
theorem canAccept_iff (s : State) : s.canAccept = true ↔
    s.transit.slots.length < 8 ∧ s.transit.draining = false ∧ s.pins.prst = false ∧ s.pins.porst = false ∧
    s.pins.bclkStopped = false ∧
    (s.esc.device = .configure → (∀ x ∈ s.transit.slots, x.progress ≠ .decided) ∧ s.msi.stage = []) := by
  rw [State.canAccept, show Config.slotCount = 8 from rfl]
  simp only [State.busRuns, Bool.and_eq_true, Bool.or_eq_true, decide_eq_true_eq, Bool.not_eq_true', bne_iff_ne,
    Option.isNone_iff_eq_none, List.isEmpty_iff, oldestDecided_eq_none, and_assoc, imp_iff_not_or, ne_eq]

theorem slotTaken_iff {s : State} {n : SlotNo} : s.slotTaken n = true ↔ ∃ x ∈ s.transit.slots, x.number = n := by
  simp [State.slotTaken]

/-- Fewer than 8 slots leave one of the 8 numbers free. -/
theorem exists_slotTaken_eq_false {s : State} (h : s.transit.slots.length < 8) : ∃ n, s.slotTaken n = false := by
  by_contra hc
  have htaken : List.finRange 8 ⊆ s.transit.slots.map fun x => x.number := by
    intro n _
    obtain ⟨x, hx, hn⟩ := slotTaken_iff.mp (by simpa using not_exists.mp hc n)
    exact List.mem_map.mpr ⟨x, hx, hn⟩
  have hlen := ((List.nodup_finRange 8).subperm htaken).length_le
  rw [List.length_finRange, List.length_map] at hlen
  omega

/-- The free slot is the first free number (R27). -/
theorem find?_free_eq_freeSlot {s : State} (h : s.transit.slots.length < 8) :
    (List.finRange 8).find? (fun n => !s.slotTaken n) = some s.freeSlot := by
  obtain ⟨n, hn⟩ := exists_slotTaken_eq_false h
  have hsome : ((List.finRange 8).find? fun n => !s.slotTaken n).isSome :=
    List.find?_isSome.mpr ⟨n, List.mem_finRange n, by simp [hn]⟩
  obtain ⟨m, hm⟩ := Option.isSome_iff_exists.mp hsome
  rw [State.freeSlot, hm, Option.getD_some]

theorem number_ne_freeSlot {s : State} (h : s.transit.slots.length < 8) :
    ∀ x ∈ s.transit.slots, x.number ≠ s.freeSlot := by
  intro x hx hn
  have hfree := List.find?_some (find?_free_eq_freeSlot h)
  rw [slotTaken_iff.mpr ⟨x, hx, hn⟩] at hfree
  cases hfree

/-- Every number below the free slot's is taken (R27). -/
theorem exists_number_of_lt_freeSlot {s : State} (h : s.transit.slots.length < 8) {n : SlotNo}
    (hn : n < s.freeSlot) : ∃ x ∈ s.transit.slots, x.number = n := by
  obtain ⟨-, i, hi, he, hbefore⟩ := List.find?_eq_some_iff_getElem.mp (find?_free_eq_freeSlot h)
  have hlt : n.val < i := by
    rw [← he] at hn
    simpa [Fin.lt_def] using hn
  have htaken := hbefore n.val hlt
  rw [Bool.not_not] at htaken
  exact slotTaken_iff.mp (by simpa using htaken)

/-! ### The accesses in flight (R32, R33) -/

theorem tag_of_mem_accesses {x : Slot} {a : Access} (h : a ∈ x.accesses) : a.tag = x.number := by
  unfold Slot.accesses at h
  cases hd : x.data with
  | none => rw [hd] at h; rw [List.mem_singleton.mp h]
  | one w => rw [hd] at h; rw [List.mem_singleton.mp h]
  | two lo hi =>
    rw [hd] at h
    rcases List.mem_pair.mp h with rfl | rfl <;> rfl

/-- A slot makes one access or two (R32, R36). -/
theorem length_accesses (x : Slot) : 1 ≤ x.accesses.length ∧ x.accesses.length ≤ 2 := by
  unfold Slot.accesses
  cases x.data <;> simp

/-- An issue to the empty request stage puts the slot's accesses in flight (R31). -/
theorem inFlight_issue {m : MemorySide} (h : m.stage = []) (x : Slot) (n : SlotNo) :
    MemorySide.inFlight { m with stage := x.accesses } n =
      m.inFlight n + if x.number = n then x.accesses.length else 0 := by
  have hcount : x.accesses.countP (fun a => a.tag == n) = if x.number = n then x.accesses.length else 0 := by
    split
    · rename_i hn
      exact List.countP_eq_length.mpr fun a ha => by simp [tag_of_mem_accesses ha, hn]
    · rename_i hn
      exact List.countP_eq_zero.mpr fun a ha => by simp [tag_of_mem_accesses ha, hn]
  simp only [MemorySide.inFlight, hcount, h, List.countP_nil]
  omega

/-- An access that memory accepts stays in flight (R32). -/
theorem inFlight_accept {m : MemorySide} {a : Access} {rest : List Access} (h : m.stage = a :: rest) (n : SlotNo) :
    MemorySide.inFlight ⟨rest, m.outstanding ++ [a.tag]⟩ n = m.inFlight n := by
  simp only [MemorySide.inFlight, h, List.countP_append, List.countP_cons, List.countP_nil]
  omega

/-- An answer ends the oldest outstanding access (R33). -/
theorem inFlight_answer {m : MemorySide} {k : SlotNo} {rest : List SlotNo} (h : m.outstanding = k :: rest)
    (n : SlotNo) :
    m.inFlight n = MemorySide.inFlight { m with outstanding := rest } n + if k = n then 1 else 0 := by
  simp only [MemorySide.inFlight, h, List.countP_cons, beq_iff_eq]
  omega

/-! ### The law of the queue, as a law of its parts -/

/-- `QueueLaw` of a queue and a memory side, clause by clause. -/
structure QueueFits (slots : List Slot) (draining : Bool) (m : MemorySide) : Prop where
  length : slots.length ≤ 8
  numbers : (slots.map fun x => x.number).Nodup
  fits : ∀ x ∈ slots, slotFits m draining x
  owned : ∀ n, 0 < m.inFlight n → ∃ x ∈ slots, x.number = n
  drains : draining = true → slots ≠ [] ∧ ∀ x ∈ slots, x.progress = .issued

theorem queueLaw_iff (s : State) : QueueLaw s ↔ QueueFits s.transit.slots s.transit.draining s.msi :=
  ⟨fun ⟨hlen, hnum, hfits, howned, hdrains⟩ => ⟨hlen, hnum, hfits, howned, hdrains⟩,
    fun h => ⟨h.length, h.numbers, h.fits, h.owned, h.drains⟩⟩

/-- The law looks at the queue and the memory side alone. -/
theorem QueueLaw.of_frame {s t : State} (h : QueueLaw s) (ht : t.transit = s.transit) (hm : t.msi = s.msi) :
    QueueLaw t := by
  rw [queueLaw_iff] at h ⊢
  rwa [ht, hm]

section slotFits
variable {m : MemorySide} {d : Bool} {x : Slot}

theorem slotFits_of_decided (hp : x.progress = .decided) : slotFits m d x ↔
    x.awaited = m.inFlight x.number ∧ x.discard = d ∧ x.disposition.needsMemory = true ∧ x.awaited = 0 ∧
      x.status = none := by
  cases hx : x.disposition <;> simp [slotFits, hp, hx, Disposition.needsMemory]
theorem slotFits_of_issued (hp : x.progress = .issued) : slotFits m d x ↔
    x.awaited = m.inFlight x.number ∧ x.discard = d ∧ x.disposition.needsMemory = true ∧ 1 ≤ x.awaited ∧
      x.awaited ≤ 2 := by
  cases hx : x.disposition <;> simp [slotFits, hp, hx, Disposition.needsMemory]
theorem slotFits_of_done (hp : x.progress = .done) : slotFits m d x ↔
    x.awaited = m.inFlight x.number ∧ x.discard = d ∧ x.awaited = 0 ∧ x.status.isSome = true := by
  simp [slotFits, hp]

theorem slotFits_awaited (h : slotFits m d x) : x.awaited = m.inFlight x.number := h.1
theorem slotFits_discard (h : slotFits m d x) : x.discard = d := h.2.1

/-- A slot with an access in flight is ISSUED. -/
theorem issued_of_inFlight (h : slotFits m d x) (hn : 0 < m.inFlight x.number) : x.progress = .issued := by
  cases hp : x.progress with
  | issued => rfl
  | decided =>
    obtain ⟨ha, -, -, hz, -⟩ := (slotFits_of_decided hp).mp h
    omega
  | done =>
    obtain ⟨ha, -, hz, -⟩ := (slotFits_of_done hp).mp h
    omega

/-- A slot looks at its own accesses in flight alone. -/
theorem slotFits_congr {m' : MemorySide} (hm : m'.inFlight x.number = m.inFlight x.number) (h : slotFits m d x) :
    slotFits m' d x := by
  unfold slotFits at h ⊢
  rwa [hm]

end slotFits

section QueueFits
variable {slots before behind : List Slot} {draining : Bool} {m m' : MemorySide} {x y : Slot}

/-- A change of single slots that keeps their numbers, what the law says of each, and which are ISSUED. -/
theorem QueueFits.map (h : QueueFits slots draining m) {f : Slot → Slot} (hnum : ∀ x, (f x).number = x.number)
    (hfits : ∀ x, slotFits m draining x → slotFits m draining (f x))
    (hissued : ∀ x, x.progress = .issued → (f x).progress = .issued) : QueueFits (slots.map f) draining m where
  length := by rw [List.length_map]; exact h.length
  numbers := by
    rw [List.map_map, show (fun x : Slot => x.number) ∘ f = fun x => x.number from funext hnum]
    exact h.numbers
  fits := by
    intro y hy
    obtain ⟨x, hx, rfl⟩ := List.mem_map.mp hy
    exact hfits x (h.fits x hx)
  owned := by
    intro n hn
    obtain ⟨x, hx, rfl⟩ := h.owned n hn
    exact ⟨f x, List.mem_map_of_mem hx, hnum x⟩
  drains := by
    intro hd
    obtain ⟨hne, hall⟩ := h.drains hd
    refine ⟨fun he => hne (List.map_eq_nil_iff.mp he), fun y hy => ?_⟩
    obtain ⟨x, hx, rfl⟩ := List.mem_map.mp hy
    exact hissued x (hall x hx)

/-- The other slots of a queue have other numbers. -/
theorem QueueFits.number_ne (h : QueueFits (before ++ x :: behind) draining m) :
    ∀ y ∈ before ++ behind, y.number ≠ x.number := by
  have hnum := h.numbers
  rw [List.map_append, List.map_cons, List.nodup_middle, List.nodup_cons, ← List.map_append] at hnum
  exact fun y hy he => hnum.1 (List.mem_map.mpr ⟨y, hy, he⟩)

/-- One slot changes, and with it the accesses in flight of its number alone. -/
theorem QueueFits.replace (h : QueueFits (before ++ x :: behind) draining m) (hnum : y.number = x.number)
    (hother : ∀ n, n ≠ x.number → m'.inFlight n = m.inFlight n) (hfits : slotFits m' draining y)
    (hissued : draining = true → y.progress = .issued) : QueueFits (before ++ y :: behind) draining m' where
  length := by simpa using h.length
  numbers := by simpa [hnum] using h.numbers
  fits := by
    intro z hz
    rcases List.mem_cons.mp (List.perm_middle.mem_iff.mp hz) with rfl | hz
    · exact hfits
    · have hx := h.fits z (List.perm_middle.mem_iff.mpr (List.mem_cons_of_mem _ hz))
      exact slotFits_congr (hother _ (h.number_ne z hz)) hx
  owned := by
    intro n hn
    by_cases hx : n = x.number
    · exact ⟨y, by simp, by rw [hnum, hx]⟩
    · rw [hother n hx] at hn
      obtain ⟨z, hz, rfl⟩ := h.owned n hn
      rcases List.mem_cons.mp (List.perm_middle.mem_iff.mp hz) with rfl | hz
      · exact absurd rfl hx
      · exact ⟨z, List.perm_middle.mem_iff.mpr (List.mem_cons_of_mem _ hz), rfl⟩
  drains := by
    intro hd
    refine ⟨by simp, fun z hz => ?_⟩
    rcases List.mem_cons.mp (List.perm_middle.mem_iff.mp hz) with rfl | hz
    · exact hissued hd
    · exact (h.drains hd).2 z (List.perm_middle.mem_iff.mpr (List.mem_cons_of_mem _ hz))

/-- One slot leaves that has no access in flight any more; a drain ends with the last slot (R39, R44). -/
theorem QueueFits.remove (h : QueueFits (before ++ x :: behind) draining m) (hzero : m'.inFlight x.number = 0)
    (hother : ∀ n, n ≠ x.number → m'.inFlight n = m.inFlight n) :
    QueueFits (before ++ behind) (draining && !(before ++ behind).isEmpty) m' where
  length := by
    have hlen := h.length
    simp only [List.length_append, List.length_cons] at hlen ⊢
    omega
  numbers := by
    have hnum := h.numbers
    rw [List.map_append, List.map_cons, List.nodup_middle, List.nodup_cons, ← List.map_append] at hnum
    exact hnum.2
  fits := by
    intro z hz
    have hx := h.fits z (List.perm_middle.mem_iff.mpr (List.mem_cons_of_mem _ hz))
    have hne : (before ++ behind).isEmpty = false := List.isEmpty_eq_false_iff.mpr (List.ne_nil_of_mem hz)
    rw [hne, Bool.not_false, Bool.and_true]
    exact slotFits_congr (hother _ (h.number_ne z hz)) hx
  owned := by
    intro n hn
    have hx : n ≠ x.number := fun he => by rw [he, hzero] at hn; exact Nat.lt_irrefl 0 hn
    rw [hother n hx] at hn
    obtain ⟨z, hz, rfl⟩ := h.owned n hn
    rcases List.mem_cons.mp (List.perm_middle.mem_iff.mp hz) with rfl | hz
    · exact absurd rfl hx
    · exact ⟨z, hz, rfl⟩
  drains := by
    intro hd
    obtain ⟨hd, hne⟩ := Bool.and_eq_true_iff.mp hd
    refine ⟨by simpa using hne, fun z hz => ?_⟩
    exact (h.drains hd).2 z (List.perm_middle.mem_iff.mpr (List.mem_cons_of_mem _ hz))

/-- A slot joins the tail with a number that no other has (R27). -/
theorem QueueFits.append (h : QueueFits slots false m) (hlen : slots.length < 8)
    (hfree : ∀ y ∈ slots, y.number ≠ x.number) (hfits : m.inFlight x.number = 0 → slotFits m false x) :
    QueueFits (slots ++ [x]) false m where
  length := by simpa using hlen
  numbers := by
    rw [List.map_append, List.map_cons, List.map_nil, List.nodup_append]
    refine ⟨h.numbers, List.nodup_singleton _, fun n hn k hk he => ?_⟩
    obtain ⟨y, hy, rfl⟩ := List.mem_map.mp hn
    exact hfree y hy (he.trans (List.mem_singleton.mp hk))
  fits := by
    intro y hy
    rcases List.mem_append.mp hy with hy | hy
    · exact h.fits y hy
    · rw [List.mem_singleton.mp hy]
      refine hfits (Nat.eq_zero_of_not_pos fun hn => ?_)
      obtain ⟨z, hz, he⟩ := h.owned _ hn
      exact hfree z hz he
  owned := by
    intro n hn
    obtain ⟨y, hy, he⟩ := h.owned n hn
    exact ⟨y, List.mem_append_left _ hy, he⟩
  drains := fun hd => by cases hd

end QueueFits

/-! ### Placement and issue keep the law (R27, R29, R31, R37) -/

/-- What a slot must hold to be placed: it awaits nothing, is not marked, and has a status exactly when it needs no
memory (R29, R37). -/
structure Slot.Placeable (x : Slot) : Prop where
  awaited : x.awaited = 0
  discard : x.discard = false
  status : x.status.isSome = !x.disposition.needsMemory

theorem placeable_writeSlot (r : WriteRequest) (i : Option Index) : (writeSlot r i).Placeable := ⟨rfl, rfl, rfl⟩
theorem placeable_readSlot (r : ReadRequest) (i : Option Index) : (readSlot r i).Placeable := ⟨rfl, rfl, rfl⟩
theorem Slot.Placeable.toDropped {x : Slot} (h : x.Placeable) (k : Index) (d : Definition) :
    (x.toDropped k d).Placeable := ⟨rfl, h.discard, rfl⟩
theorem Slot.Placeable.toPoisoned {x : Slot} (h : x.Placeable) (k : Index) (d : Definition) (p : Word) (a : Answer) :
    (x.toPoisoned k d p a).Placeable := ⟨rfl, h.discard, rfl⟩

theorem disposition_sendAsReceived (v : Value) :
    (sendAsReceived v).disposition = .forward ∨ (sendAsReceived v).disposition = .pairWrite := by
  cases v with
  | word w => exact .inl rfl
  | pair lo hi => exact .inr rfl

/-- A faulted write is sent, substituted or dropped (R63). -/
theorem faultedPlacement_ne_poisoned (e : Entry) (r : WriteRequest) (v : Value) :
    (faultedPlacement e r v).disposition ≠ .poisoned := by
  unfold faultedPlacement
  split
  · rcases disposition_sendAsReceived v with h | h <;> rw [h] <;> decide
  · cases v <;> exact fun h => nomatch h
  · exact fun h => nomatch h
  · exact fun h => nomatch h

/-- No write is POISONED (R37). -/
theorem inspect_ne_poisoned (e : Entry) (r : WriteRequest) : (inspect e r).placement.disposition ≠ .poisoned := by
  have hsent : ∀ v, (sendAsReceived v).disposition ≠ .poisoned := fun v h => by
    rcases disposition_sendAsReceived v with hv | hv <;> rw [hv] at h <;> cases h
  rcases inspect_cases e r with ⟨-, hi⟩ | ⟨-, p, -, hi⟩ | ⟨-, -, hi⟩
  · rw [hi]; exact fun h => nomatch h
  · rw [hi]; exact fun h => nomatch h
  · rcases judge_cases e r (pairingStage e r) with ⟨-, hj⟩ | ⟨-, -, hj⟩ | ⟨-, -, hj⟩
    · rw [hi, hj]; exact faultedPlacement_ne_poisoned e r _
    · rw [hi, hj]; exact hsent _
    · rw [hi, hj]; exact hsent _

/-- An inspected write that is answered at once has its status (R37). -/
theorem placeable_inspectedSlot (k : Index) (d : Definition) (e : Entry) (r : WriteRequest) :
    (inspectedSlot k d r (inspect e r)).Placeable := by
  refine ⟨rfl, rfl, ?_⟩
  have hne := inspect_ne_poisoned e r
  simp only [inspectedSlot]
  cases hd : (inspect e r).placement.disposition with
  | poisoned => exact absurd hd hne
  | forward | substitute | pairWrite | held | dropped => rfl

theorem queueLaw_placeSlot {s : State} (h : QueueLaw s) (hlen : s.transit.slots.length < 8)
    (hdrain : s.transit.draining = false) {x : Slot} (hx : x.Placeable) : QueueLaw (placeSlot x s) := by
  rw [queueLaw_iff] at h ⊢
  rw [slots_placeSlot, draining_placeSlot, msi_placeSlot, hdrain]
  rw [hdrain] at h
  refine h.append hlen (number_ne_freeSlot hlen) fun hzero => ?_
  have hst := hx.status
  cases hm : x.disposition.needsMemory with
  | true =>
    refine (slotFits_of_decided rfl).mpr ⟨hx.awaited.trans hzero.symm, hx.discard, hm, hx.awaited, ?_⟩
    rw [hm, Bool.not_true, Option.isSome_eq_false_iff, Option.isNone_iff_eq_none] at hst
    exact hst
  | false =>
    refine (slotFits_of_done rfl).mpr ⟨hx.awaited.trans hzero.symm, hx.discard, hx.awaited, ?_⟩
    rw [hst, hm, Bool.not_false]

/-- The queue has no DECIDED slot, or an oldest one. -/
theorem none_decided_or_oldest (s : State) : (∀ y ∈ s.transit.slots, y.progress ≠ .decided) ∨
    ∃ before x behind, s.transit.slots = before ++ x :: behind ∧ (∀ y ∈ before, y.progress ≠ .decided) ∧
      x.progress = .decided := by
  cases h : s.oldestDecided with
  | none => exact .inl (oldestDecided_eq_none.mp h)
  | some x =>
    obtain ⟨hx, before, behind, hs, hb⟩ := List.find?_eq_some_iff_append.mp h
    exact .inr ⟨before, x, behind, hs, fun y hy => by simpa using hb y hy, by simpa using hx⟩

theorem queueLaw_issueOldest {s : State} (h : QueueLaw s) (hstage : s.msi.stage = []) : QueueLaw (issueOldest s) := by
  rcases none_decided_or_oldest s with hn | ⟨before, x, behind, hs, hb, hx⟩
  · rwa [issueOldest_of_none hn]
  · rw [issueOldest_of_append hs hb hx]
    rw [queueLaw_iff] at h ⊢
    rw [hs] at h
    obtain ⟨ha, hdiscard, hmem, hzero, -⟩ := (slotFits_of_decided hx).mp (h.fits x (by simp))
    have hfits : slotFits { s.msi with stage := x.accesses } s.transit.draining x.toIssued := by
      refine (slotFits_of_issued rfl).mpr ⟨?_, hdiscard, hmem, length_accesses x⟩
      have hcount := inFlight_issue hstage x x.number
      rw [← ha, hzero, if_pos rfl, Nat.zero_add] at hcount
      exact hcount.symm
    refine h.replace rfl (fun n hn => ?_) hfits fun _ => rfl
    rw [inFlight_issue hstage, if_neg (Ne.symm hn), Nat.add_zero]

theorem queueLaw_placeIssued {s : State} (h : QueueLaw s) (hlen : s.transit.slots.length < 8)
    (hdrain : s.transit.draining = false) (hstage : s.msi.stage = []) {x : Slot} (hx : x.Placeable) :
    QueueLaw (placeIssued x s) :=
  queueLaw_issueOldest (queueLaw_placeSlot h hlen hdrain hx) hstage

/-! ### Conversions keep the law (R40, R41) -/

/-- A waiting slot that is answered by the part keeps the law of its queue (R37, R40, R41). -/
theorem slotFits_of_converted {m : MemorySide} {d : Bool} {x y : Slot} (h : slotFits m d x)
    (hp : x.progress = .decided) (hnum : y.number = x.number) (hdiscard : y.discard = x.discard)
    (hy : y.progress = .done) (hawaited : y.awaited = 0) (hst : y.status.isSome = true) : slotFits m d y := by
  obtain ⟨ha, hd, -, hzero, -⟩ := (slotFits_of_decided hp).mp h
  exact (slotFits_of_done hy).mpr ⟨by rw [hawaited, hnum, ← ha, hzero], hdiscard.trans hd, hawaited, hst⟩

theorem slotFits_toDropped {m : MemorySide} {d : Bool} {x : Slot} (h : slotFits m d x) (hp : x.progress = .decided)
    (k : Index) (e : Definition) : slotFits m d (x.toDropped k e) :=
  slotFits_of_converted h hp rfl rfl rfl rfl rfl
theorem slotFits_toPoisoned {m : MemorySide} {d : Bool} {x : Slot} (h : slotFits m d x) (hp : x.progress = .decided)
    (k : Index) (e : Definition) (p : Word) (a : Answer) : slotFits m d (x.toPoisoned k e p a) :=
  slotFits_of_converted h hp rfl rfl rfl rfl rfl

theorem QueueFits.convertForFailure {slots : List Slot} {draining : Bool} {m : MemorySide}
    (h : QueueFits slots draining m) (k : Index) (e : Entry) (p : Word) :
    QueueFits (slots.map (convertForFailure k e p)) draining m := by
  refine h.map (number_convertForFailure k e p) (fun x hx => ?_) fun x hx => ?_
  · rcases convertForFailure_cases k e p x with ⟨he, -⟩ | ⟨hd, -, he | ⟨a, he⟩⟩ <;> rw [he]
    · exact hx
    · exact slotFits_toDropped hx hd _ _
    · exact slotFits_toPoisoned hx hd _ _ _ _
  · rw [convertForFailure_of_not (.inl (by simp [hx])), hx]

theorem QueueFits.convertForLockdown {slots : List Slot} {draining : Bool} {m : MemorySide}
    (h : QueueFits slots draining m) (s : State) : QueueFits (slots.map (convertForLockdown s)) draining m := by
  refine h.map (number_convertForLockdown s) (fun x hx => ?_) fun x hx => ?_
  · rcases convertForLockdown_cases s x with ⟨he, -⟩ | ⟨hd, w, -, k, -, he | ⟨a, he⟩⟩ <;> rw [he]
    · exact hx
    · exact slotFits_toDropped hx hd _ _
    · exact slotFits_toPoisoned hx hd _ _ _ _
  · rcases convertForLockdown_cases s x with ⟨he, -⟩ | ⟨hd, -⟩
    · rw [he, hx]
    · rw [hx] at hd; cases hd

theorem queueLaw_enterLockdown {s : State} (h : QueueLaw s) (reason : LockdownReason) :
    QueueLaw (enterLockdown reason s) := by
  rw [queueLaw_iff] at h ⊢
  rw [slots_enterLockdown, draining_enterLockdown, msi_enterLockdown]
  exact h.convertForLockdown s

theorem queueLaw_takeFailure {s : State} (h : QueueLaw s) (k : Index) : QueueLaw (takeFailure k s) := by
  have hconv : ∀ x, QueueLaw (failureConversion k (s.setEscalation x)) := fun x => by
    rw [queueLaw_iff] at h ⊢
    exact h.convertForFailure k _ _
  by_cases hr : (s.entry k).defn.reaction = .lockdown
  · rw [takeFailure_of_lockdown hr]
    exact queueLaw_enterLockdown (hconv _) _
  · rw [takeFailure_of_ne hr]
    exact hconv _

theorem queueLaw_lateExpiry {s : State} (h : QueueLaw s) (k : Index) : QueueLaw (lateExpiry k s) := by
  by_cases hf : (s.entry k).faultCounter + 1 = (s.entry k).defn.threshold
  · rw [lateExpiry_of_eq hf]
    exact queueLaw_takeFailure (h.of_frame (by simp) (by simp)) k
  · rw [lateExpiry_of_ne hf]
    exact h.of_frame (by simp) (by simp)

/-! ### Arrivals keep the law (R27 to R29) -/

theorem queueLaw_applyInspection {s : State} (h : QueueLaw s) (hlen : s.transit.slots.length < 8)
    (hdrain : s.transit.draining = false) (k : Index) (e : Entry) (r : WriteRequest) :
    QueueLaw (applyInspection k r (inspect e r) s) := by
  have hplaced := queueLaw_placeSlot (s := applyTiming k (inspect e r) s) (h.of_frame (by simp) (by simp))
    (by simpa using hlen) (by simpa using hdrain) (placeable_inspectedSlot k (inspect e r).next.defn e r)
  cases hf : (inspect e r).fails with
  | false =>
    rw [applyInspection_of_not_fails hf]
    exact hplaced.of_frame (by simp) (by simp)
  | true =>
    rw [applyInspection_of_fails hf]
    exact queueLaw_takeFailure (hplaced.of_frame (by simp) (by simp)) k

theorem queueLaw_acceptWrite {s : State} (hc : s.canAccept = true) (h : QueueLaw s) (r : WriteRequest) :
    QueueLaw (acceptWrite r s) := by
  obtain ⟨hlen, hdrain, -⟩ := (canAccept_iff s).mp hc
  have hplace : ∀ {x : Slot}, x.Placeable → QueueLaw (placeSlot x s) := queueLaw_placeSlot h hlen hdrain
  unfold acceptWrite
  dsimp only
  split
  · rename_i hd
    exact queueLaw_placeIssued h hlen hdrain (noneDecided_of_canAccept hc hd).2 (placeable_writeSlot r _)
  · exact hplace (placeable_writeSlot r _)
  · exact hplace ((placeable_writeSlot r _).toDropped _ _)
  · split
    · exact queueLaw_applyInspection h hlen hdrain _ _ r
    · exact hplace (placeable_writeSlot r _)

theorem queueLaw_acceptRead {s : State} (hc : s.canAccept = true) (h : QueueLaw s) (r : ReadRequest) :
    QueueLaw (acceptRead r s) := by
  obtain ⟨hlen, hdrain, -⟩ := (canAccept_iff s).mp hc
  have hplace : ∀ {x : Slot}, x.Placeable → QueueLaw (placeSlot x s) := queueLaw_placeSlot h hlen hdrain
  unfold acceptRead
  dsimp only
  split
  · rename_i hd
    exact queueLaw_placeIssued h hlen hdrain (noneDecided_of_canAccept hc hd).2 (placeable_readSlot r _)
  · exact hplace (placeable_readSlot r _)
  · split
    · exact hplace (placeable_readSlot r _)
    · exact hplace ((placeable_readSlot r _).toPoisoned _ _ _ _)

/-! ### The memory side and the processor side (R32, R33, R39, R44) -/

theorem queueLaw_acceptAccess {s : State} (h : QueueLaw s) : QueueLaw (acceptAccess s) := by
  unfold acceptAccess
  split
  · exact h
  · rename_i a rest hstage
    have hin := inFlight_accept hstage
    rw [queueLaw_iff] at h ⊢
    exact ⟨h.length, h.numbers, fun x hx => slotFits_congr (hin _) (h.fits x hx), fun n hn => h.owned n (hin n ▸ hn),
      h.drains⟩

/-- A slot with the status and progress of one more answer that the law gives it (R33 to R36). -/
theorem Slot.answered_eq {x : Slot} (hp : x.progress = .issued) (ha : 1 ≤ x.awaited) (st : Answer) (data : Word) :
    x.answered st data = { x with
      awaited := x.awaited - 1
      status := some (if x.status = some .error ∨ st = .error then .error else .okay)
      answerData := match x.kind with
        | .read => some data
        | .write => x.answerData
      progress := if x.awaited = 1 then .done else .issued } := by
  have hstatus : joinStatus x.status st = if x.status = some .error ∨ st = .error then .error else .okay := by
    rcases x.status with _ | _ | _ <;> cases st <;> rfl
  have hlast : x.awaited - 1 = 0 ↔ x.awaited = 1 := by omega
  cases hk : x.kind <;> simp only [Slot.answered, hstatus, hlast, hp, hk]

/-- In a queue that fits, a slot leaves with no response only by its last answer, while the queue drains (R44). -/
theorem leavesDrained_of_fits {m : MemorySide} {d : Bool} {x : Slot} (h : slotFits m d x)
    (hissued : d = true → x.progress = .issued) : x.leavesDrained = false := by
  unfold Slot.leavesDrained
  rw [slotFits_discard h]
  cases hd : d with
  | false => rfl
  | true => rw [hissued hd]; rfl

/-- An answer leaves the slots of other numbers, when none of them leaves on its own. -/
theorem answerSlot_of_other {n : SlotNo} {st : Answer} {data : Word} {slots : List Slot}
    (hnum : ∀ y ∈ slots, y.number ≠ n) (hstay : ∀ y ∈ slots, y.leavesDrained = false) :
    answerSlot n st data slots = slots := by
  have hmap : (slots.map fun y => if y.number == n then y.answered st data else y) = slots :=
    (List.map_congr_left fun y hy => if_neg (by simpa using hnum y hy)).trans (List.map_id' slots)
  rw [answerSlot, hmap]
  exact List.filter_eq_self.mpr fun y hy => by rw [hstay y hy]; rfl

/-- An answer in a queue that fits reaches one slot, which leaves when the queue drains and the answer is its last (R33,
R44). -/
theorem answerSlot_of_fits {before behind : List Slot} {x : Slot} {draining : Bool} {m : MemorySide}
    (h : QueueFits (before ++ x :: behind) draining m) (hn : 0 < m.inFlight x.number) (st : Answer) (data : Word) :
    answerSlot x.number st data (before ++ x :: behind) =
      if draining = true ∧ x.awaited = 1 then before ++ behind else before ++ x.answered st data :: behind := by
  have hothers : ∀ l, (∀ y ∈ l, y ∈ before ++ behind) → answerSlot x.number st data l = l := by
    intro l hl
    refine answerSlot_of_other (fun y hy => h.number_ne y (hl y hy)) fun y hy => ?_
    have hmem : y ∈ before ++ x :: behind := List.perm_middle.mem_iff.mpr (List.mem_cons_of_mem _ (hl y hy))
    exact leavesDrained_of_fits (h.fits y hmem) fun hd => (h.drains hd).2 y hmem
  have hsplit : answerSlot x.number st data (before ++ x :: behind) =
      answerSlot x.number st data before ++
        (if (x.answered st data).leavesDrained = true then [] else [x.answered st data]) ++
        answerSlot x.number st data behind := by
    unfold answerSlot
    rw [List.map_append, List.filter_append, List.map_cons, List.filter_cons, if_pos (beq_self_eq_true x.number)]
    cases (x.answered st data).leavesDrained <;> simp
  have hx := h.fits x (by simp)
  have hp := issued_of_inFlight hx hn
  obtain ⟨-, hdiscard, -, hawaited, -⟩ := (slotFits_of_issued hp).mp hx
  have hleaves : (x.answered st data).leavesDrained = true ↔ draining = true ∧ x.awaited = 1 := by
    rw [Slot.answered_eq hp hawaited, Slot.leavesDrained, hdiscard]
    by_cases hlast : x.awaited = 1 <;> simp [hlast]
  rw [hsplit, hothers before fun y hy => List.mem_append_left _ hy,
    hothers behind fun y hy => List.mem_append_right _ hy]
  simp only [hleaves]
  split
  · simp
  · simp

/-- What a memory answer does in a queue that fits, at the slot of the oldest outstanding access. -/
theorem takeAnswer_of_fits {s : State} {before behind : List Slot} {x : Slot} {rest : List SlotNo} (h : QueueLaw s)
    (hs : s.transit.slots = before ++ x :: behind) (ho : s.msi.outstanding = x.number :: rest) (tag : SlotNo)
    (st : Answer) (data : Word) :
    takeAnswer tag st data s =
      let slots := if s.transit.draining = true ∧ x.awaited = 1 then before ++ behind
        else before ++ x.answered (matchedStatus x.number tag st) data :: behind
      { s with
        msi := { s.msi with outstanding := rest }
        transit := ⟨slots, s.transit.draining && !slots.isEmpty⟩ } := by
  have hfits := (queueLaw_iff s).mp h
  rw [hs] at hfits
  have hn : 0 < s.msi.inFlight x.number := by rw [inFlight_answer ho, if_pos rfl]; omega
  rw [takeAnswer, ho]
  dsimp only
  rw [hs, answerSlot_of_fits hfits hn]

/-- A slot with one access fewer in flight, once the answer has reached it (R33 to R36). -/
theorem slotFits_answered {m m' : MemorySide} {d : Bool} {x : Slot} (h : slotFits m d x)
    (hm : m.inFlight x.number = m'.inFlight x.number + 1) (st : Answer) (data : Word) :
    slotFits m' d (x.answered st data) := by
  have hp := issued_of_inFlight h (by omega)
  obtain ⟨ha, hdiscard, hmem, hone, htwo⟩ := (slotFits_of_issued hp).mp h
  have hleft : x.awaited - 1 = m'.inFlight x.number := by omega
  rw [Slot.answered_eq hp hone]
  by_cases hlast : x.awaited = 1
  · refine (slotFits_of_done (by simp [hlast])).mpr ⟨hleft, hdiscard, ?_, rfl⟩
    show x.awaited - 1 = 0
    omega
  · refine (slotFits_of_issued (by simp [hlast])).mpr ⟨hleft, hdiscard, hmem, ?_, ?_⟩
    · show 1 ≤ x.awaited - 1
      omega
    · show x.awaited - 1 ≤ 2
      omega

theorem queueLaw_takeAnswer {s : State} (h : QueueLaw s) (tag : SlotNo) (st : Answer) (data : Word) :
    QueueLaw (takeAnswer tag st data s) := by
  cases ho : s.msi.outstanding with
  | nil => rw [takeAnswer, ho]; exact h
  | cons n rest =>
    have hfits := (queueLaw_iff s).mp h
    have hin := inFlight_answer ho
    have hn : 0 < s.msi.inFlight n := by rw [hin, if_pos rfl]; omega
    obtain ⟨x, hx, rfl⟩ := hfits.owned n hn
    obtain ⟨before, behind, hs⟩ := List.append_of_mem hx
    have hslot := hfits.fits x hx
    have hp := issued_of_inFlight hslot hn
    have hself := hin x.number
    rw [if_pos rfl] at hself
    have hother : ∀ k, k ≠ x.number →
        MemorySide.inFlight { s.msi with outstanding := rest } k = s.msi.inFlight k := fun k hk => by
      rw [hin k, if_neg (Ne.symm hk), Nat.add_zero]
    rw [hs] at hfits
    rw [takeAnswer_of_fits h hs ho, queueLaw_iff]
    dsimp only
    split
    · rename_i hlast
      have hawaited := slotFits_awaited hslot
      exact hfits.remove (by omega) hother
    · rename_i hstays
      rw [List.isEmpty_eq_false_iff.mpr (List.append_ne_nil_of_right_ne_nil _ (List.cons_ne_nil _ _)), Bool.not_false,
        Bool.and_true]
      refine hfits.replace rfl hother (slotFits_answered hslot hself _ _) fun hd => ?_
      have hlast : x.awaited ≠ 1 := fun hl => hstays ⟨hd, hl⟩
      rw [Slot.answered_eq hp ((slotFits_awaited hslot).symm ▸ hn)]
      exact if_neg hlast

theorem queueLaw_takeResponse {s : State} (h : QueueLaw s) : QueueLaw (takeResponse s) := by
  unfold takeResponse
  split
  · exact h
  · rename_i x rest hs
    split
    · rename_i hp
      rw [beq_iff_eq] at hp
      have hfits := (queueLaw_iff s).mp h
      rw [hs] at hfits
      have hd : s.transit.draining = false := by
        by_contra hd
        have hx := (hfits.drains (by simpa using hd)).2 x List.mem_cons_self
        rw [hp] at hx; cases hx
      obtain ⟨ha, -, hzero, -⟩ := (slotFits_of_done hp).mp (hfits.fits x List.mem_cons_self)
      rw [queueLaw_iff, slots_setSlots, draining_setSlots, msi_setSlots]
      have hleft := hfits.remove (before := []) (ha.symm.trans hzero) fun _ _ => rfl
      rw [hd, Bool.false_and] at hleft
      rwa [hd]
    · exact h

/-! ### The drain (R43) and every step -/

theorem QueueFits.drain {slots : List Slot} {draining : Bool} {m : MemorySide} (h : QueueFits slots draining m) :
    QueueFits (drainSlots slots) (!(drainSlots slots).isEmpty) m := by
  have hmem : ∀ y ∈ drainSlots slots, ∃ x ∈ slots, x.progress = .issued ∧ y = { x with discard := true } := by
    intro y hy
    simp only [drainSlots, List.mem_map, List.mem_filter, beq_iff_eq] at hy
    obtain ⟨x, ⟨hx, hp⟩, rfl⟩ := hy
    exact ⟨x, hx, hp, rfl⟩
  have hnum : (drainSlots slots).map (fun x => x.number) =
      (slots.filter fun x => x.progress == .issued).map fun x => x.number := by
    rw [drainSlots, List.map_map]; rfl
  refine ⟨?_, ?_, fun y hy => ?_, fun n hn => ?_, fun hd => ⟨by simpa using hd, fun y hy => ?_⟩⟩
  · rw [drainSlots, List.length_map]
    exact (List.length_filter_le _ _).trans h.length
  · rw [hnum]
    exact h.numbers.sublist (List.filter_sublist.map _)
  · have hne : (drainSlots slots).isEmpty = false := List.isEmpty_eq_false_iff.mpr (List.ne_nil_of_mem hy)
    obtain ⟨x, hx, hp, rfl⟩ := hmem y hy
    obtain ⟨ha, -, hrest⟩ := (slotFits_of_issued hp).mp (h.fits x hx)
    rw [hne]
    exact (slotFits_of_issued (x := { x with discard := true }) hp).mpr ⟨ha, rfl, hrest⟩
  · obtain ⟨x, hx, rfl⟩ := h.owned n hn
    have hp := issued_of_inFlight (h.fits x hx) hn
    refine ⟨{ x with discard := true }, List.mem_map.mpr ⟨x, List.mem_filter.mpr ⟨hx, ?_⟩, rfl⟩, rfl⟩
    rw [hp]; rfl
  · obtain ⟨x, -, hp, rfl⟩ := hmem y hy
    exact hp

theorem queueLaw_drain {s : State} (h : QueueLaw s) : QueueLaw (drain s) := by
  rw [queueLaw_iff] at h ⊢
  exact h.drain

theorem keeps_queueLaw : Keeps QueueLaw where
  link s c m _ h := h.of_frame rfl rfl
  free s n h := h.of_frame rfl rfl
  offered s o h := h.of_frame rfl rfl
  write s r hc h := queueLaw_acceptWrite hc h r
  read s r hc h := queueLaw_acceptRead hc h r
  issue s hstage h := queueLaw_issueOldest h hstage
  accept s h := queueLaw_acceptAccess h
  answer s tag st d h := queueLaw_takeAnswer h tag st d
  response s h := queueLaw_takeResponse h
  prst s b h := h.of_frame rfl rfl
  porst s h := h.of_frame rfl rfl
  processorReset s _ h := queueLaw_drain (h.of_frame (by simp) (by simp))
  powerOn s _ := queueLaw_reset.of_frame rfl rfl
  divider s n h := h.of_frame rfl rfl
  lower s _ _ h := h.of_frame (by simp) (by simp)
  openPhase s k _ h := h.of_frame rfl rfl
  late s k _ h := queueLaw_lateExpiry h k
  arming s w h := h.of_frame rfl rfl
  poison s w _ h := h.of_frame rfl rfl
  alert s b h := h.of_frame rfl rfl
  draft s d _ h := h.of_frame rfl rfl
  install s k _ _ _ _ h := by
    refine h.of_frame ?_ ?_ <;> (unfold installDraft; split <;> rfl)
  retire s k _ _ _ h := h.of_frame rfl rfl
  rearm s k _ _ _ h := h.of_frame (by simp) (by unfold rearmEntry; dsimp only; split <;> rfl)
  start s _ h := h.of_frame (by simp) (by simp)
  stop s _ _ h := h.of_frame (by simp) (by simp)
  lockdown s _ h := queueLaw_enterLockdown h _
  release s sel _ _ h := h.of_frame (by simp) (by simp)
  force s sel _ h := h.of_frame (by simp) (by simp)
  collect s k _ h := h.of_frame rfl rfl
  softReset s h := h.of_frame rfl rfl

/-- Settles O59: the operations keep the law of the queue; an access in flight moves with the slot that it belongs to. -/
theorem stepKeepsTheQueue : Obligations.StepKeepsTheQueue :=
  fun _ _ h hx => step_preserves keeps_queueLaw (fun _ _ hp => hp.of_frame rfl rfl) hx h

/-! ### Requests that arrive and wait (R25, R27; log 3) -/

theorem exec_writeCommand (r : WriteRequest) (s : State) : exec r.command s = .next (offer (.write r) s) := rfl
theorem exec_readCommand (r : ReadRequest) (s : State) : exec r.command s = .next (offer (.read r) s) := rfl

theorem setOffered_self {s : State} {o : Option Offer} (h : s.pins.offered = o) : s.setOffered o = s := by
  subst h; rfl

/-- A request with no other held is held offered while it cannot be accepted (R25, R27). -/
theorem offer_of_not_canAccept {s : State} {o : Offer} (hc : s.canAccept = false)
    (ho : s.pins.offered = none ∨ s.pins.offered = some o) : offer o s = s.setOffered (some o) := by
  have hhold : acceptOrHold o s = s.setOffered (some o) := by simp [acceptOrHold, hc]
  rcases ho with ho | ho
  · rw [offer, ho]; exact hhold
  · rw [offer, ho]; exact (if_pos rfl).trans hhold

/-- The request held is accepted when it comes again and can be (R27). -/
theorem offer_of_held {s : State} {o : Offer} (hc : s.canAccept = true) (ho : s.pins.offered = some o) :
    offer o s = acceptOffer o s := by
  rw [offer, ho]
  exact (if_pos rfl).trans (if_pos hc)

/-- Another request does not come while the one held cannot be accepted, and otherwise follows its acceptance (log 3). -/
theorem offer_of_other {s : State} {o held : Offer} (ho : s.pins.offered = some held) (hne : held ≠ o) :
    offer o s = if s.canAccept = true then offer o (acceptOffer held s) else s := by
  have hfree : offer o (acceptOffer held s) = acceptOrHold o (acceptOffer held s) := by
    rw [offer, show (acceptOffer held s).pins.offered = none by simp]
  rw [hfree, offer, ho]
  exact if_neg hne

/-- A row of a request other than `o` offers a request other than `o`. -/
theorem exec_of_other_request {i : Instr} {o : Offer}
    (h : (∃ r, i = WriteRequest.command r ∧ o ≠ .write r) ∨ (∃ r, i = ReadRequest.command r ∧ o ≠ .read r)) :
    ∃ o', o ≠ o' ∧ ∀ s, exec i s = .next (offer o' s) := by
  rcases h with ⟨r, rfl, hne⟩ | ⟨r, rfl, hne⟩
  · exact ⟨.write r, hne, exec_writeCommand r⟩
  · exact ⟨.read r, hne, exec_readCommand r⟩

/-- Settles O8: the conditions of an acceptance, the first free number among 8, and the offer held meanwhile. -/
theorem acceptanceAndSlotNumber : Obligations.AcceptanceAndSlotNumber := by
  refine ⟨canAccept_iff, fun s hlen => ⟨number_ne_freeSlot hlen, fun n hn => exists_number_of_lt_freeSlot hlen hn⟩,
    fun s r hc ho => ?_, fun s r hc ho => ?_, fun s i o hc ho hi => ?_, fun s i o hc ho hi => ?_⟩
  · rw [exec_writeCommand, offer_of_not_canAccept hc ho]; rfl
  · rw [exec_readCommand, offer_of_not_canAccept hc ho]; rfl
  · obtain ⟨o', hne, hi⟩ := exec_of_other_request hi
    rw [hi, offer_of_other ho hne, if_neg (by simp [hc])]
  · obtain ⟨o', hne, hi⟩ := exec_of_other_request hi
    refine ⟨acceptOffer o s, fun r hr => ?_, fun r hr => ?_, by simp, ?_⟩
    · rw [exec_writeCommand, ← hr, offer_of_held hc ho]
    · rw [exec_readCommand, ← hr, offer_of_held hc ho]
    · rw [hi, hi, offer_of_other ho hne, if_pos hc]

/-- Settles O2: the step accepts the request held once it can; one that stays held, or BCLK stopped, changes nothing. -/
theorem stepWithNothingWaiting : Obligations.StepWithNothingWaiting := by
  intro s hp
  have hstep : step s = .next (acceptHeldOffer s) := by rw [step, hp]
  have hnone : s.pins.offered = none → acceptHeldOffer s = s := fun ho => by rw [acceptHeldOffer, ho]
  have hsome : ∀ o, s.pins.offered = some o → acceptHeldOffer s = acceptOrHold o s := fun o ho => by
    rw [acceptHeldOffer, ho]
  have hheld : ∀ o, s.pins.offered = some o → s.canAccept = false → acceptHeldOffer s = s := fun o ho hc => by
    rw [hsome o ho, acceptOrHold, hc]
    exact setOffered_self ho
  rw [hstep]
  refine ⟨fun hb => ?_, fun ho => by rw [hnone ho], fun o ho => ⟨fun hc => by rw [hheld o ho hc], fun hc => ?_⟩⟩
  · have hc : s.canAccept = false := by
      by_contra hc
      obtain ⟨-, -, -, -, hrun, -⟩ := (canAccept_iff s).mp (by simpa using hc)
      rw [hb] at hrun; cases hrun
    cases ho : s.pins.offered with
    | none => rw [hnone ho]
    | some o => rw [hheld o ho hc]
  · rw [hsome o ho, acceptOrHold, if_pos hc]

/-! ### Every command has an answer, and the resets -/

/-- No command ends in a fault or a refusal (R37, R179, R181). -/
theorem exec_eq_next (c : Instr) (s : State) : ∃ t, exec c s = .next t := by
  cases c <;> exact ⟨_, rfl⟩

theorem pending_acceptWrite (r : WriteRequest) (s : State) : (acceptWrite r s).pending = s.pending := by
  unfold acceptWrite
  dsimp only
  split
  · simp
  · simp
  · simp
  · split <;> simp
theorem pending_acceptRead (r : ReadRequest) (s : State) : (acceptRead r s).pending = s.pending := by
  unfold acceptRead
  dsimp only
  split
  · simp
  · simp
  · split <;> simp

/-- No operation touches the waiting commands. -/
theorem keeps_pending (l : List Instr) : Keeps fun s => s.pending = l where
  link _ _ _ _ h := h
  free _ _ h := h
  offered _ _ h := h
  write s r _ h := (pending_acceptWrite r s).trans h
  read s r _ h := (pending_acceptRead r s).trans h
  issue s _ h := (pending_issueOldest s).trans h
  accept s h := by unfold acceptAccess; split <;> exact h
  answer s tag st d h := by unfold takeAnswer; split <;> exact h
  response s h := by
    unfold takeResponse
    split
    · exact h
    · split <;> exact h
  prst _ _ h := h
  porst _ h := h
  processorReset s _ h := by simpa using h
  powerOn _ h := h
  divider _ _ h := h
  lower s _ _ h := by simpa using h
  openPhase _ _ _ h := h
  late s k _ h := (pending_lateExpiry k s).trans h
  arming _ _ h := h
  poison _ _ _ h := h
  alert _ _ h := h
  draft _ _ _ h := h
  install s k _ _ _ _ h := by unfold installDraft; split <;> exact h
  retire _ _ _ _ _ h := h
  rearm s k _ _ _ h := by unfold rearmEntry; dsimp only; split <;> exact h
  start s _ h := by simpa using h
  stop s _ _ h := by simpa using h
  lockdown s _ h := by simpa using h
  release s sel _ _ h := by simpa using h
  force s sel _ h := by simpa using h
  collect _ _ _ h := h
  softReset _ h := h

/-- Settles O3: every arm answers a next state, and the operations keep the waiting commands. -/
theorem everyCommandAnswersANextState : Obligations.EveryCommandAnswersANextState := by
  intro c s
  obtain ⟨t, ht⟩ := exec_eq_next c s
  exact ⟨t, ht, exec_preserves (keeps_pending s.pending) c ht rfl⟩

/-- Settles O5: the fields by evaluation, the 64 records by their lemmas. -/
theorem powerOnResetAndReleases : Obligations.PowerOnResetAndReleases := by
  refine ⟨fun s => ⟨(powerOnValues s).setPorst true, rfl, ?_, rfl, ?_, rfl, rfl, rfl⟩, fun s => rfl, fun s => rfl⟩
  · exact ⟨rfl, rfl, fun k => ⟨by simp, by simp, by simp⟩, rfl, rfl, rfl, rfl, rfl, rfl,
      fun k => ⟨failed_resetGroup k, failed_resetGroup k⟩, rfl, rfl, rfl, rfl, rfl, rfl, rfl, rfl⟩
  · simp [State.miso]

/-! ### The way of a slot (R31 to R36, R39, R44) -/

theorem busRuns_iff (s : State) : s.busRuns = true ↔ s.pins.bclkStopped = false := by simp [State.busRuns]
theorem busRuns_eq_false_iff (s : State) : s.busRuns = false ↔ s.pins.bclkStopped = true := by simp [State.busRuns]

/-- An event that would change nothing changes nothing, whether it comes or not (log 4). -/
theorem onlyIf_of_fixed {f : State → State} {s : State} (h : f s = s) (c : Bool) : onlyIf c f s = s := by
  cases c
  · rfl
  · exact h

/-- The two writes of a two-word slot go to the base of its pair and the word above it (R35, R36; log 13). -/
theorem accesses_of_two {x : Slot} {lo hi : Word} {base : Addr} (hd : x.data = .two lo hi)
    (heven : base.getLsbD 0 = false) (ha : x.addr = base ∨ x.addr = base + 1) :
    x.accesses = [⟨x.number, base, .write 15#4 lo⟩, ⟨x.number, base + 1, .write 15#4 hi⟩] := by
  simp only [Slot.accesses, hd, pairBase_eq heven ha]

/-- Settles O22: the first DECIDED slot is issued, and the access offered moves to the outstanding ones. -/
theorem issueAndAccept : Obligations.IssueAndAccept := by
  refine ⟨fun s before x behind hb hstage hs hbefore hx => ?_, fun s h => ?_, fun x => ⟨fun _ hd => ?_, fun w hd hf => ?_,
    fun w hd hf => ?_, fun lo hi base hd heven ha => accesses_of_two hd heven ha⟩, fun s a rest hb hs => ?_, fun s h => ?_⟩
  · rw [← busRuns_iff] at hb
    simp only [exec, execSlotIssue, hb, hstage, List.isEmpty_nil, Bool.and_self, onlyIf_true]
    rw [issueOldest_of_append hs hbefore hx]
    rfl
  · simp only [exec, execSlotIssue]
    rcases onlyIf_cases (s.busRuns && s.msi.stage.isEmpty) issueOldest s with ⟨hc, he⟩ | ⟨-, he⟩
    · rw [Bool.and_eq_true, busRuns_iff, List.isEmpty_iff] at hc
      rcases h with h | h | h
      · rw [hc.1] at h; cases h
      · exact absurd hc.2 h
      · rw [he, issueOldest_of_none h]
    · rw [he]
  · simp only [Slot.accesses, hd]
  · simp [Slot.accesses, hd, hf]
  · simp [Slot.accesses, hd, hf]
  · rw [← busRuns_iff] at hb
    refine ⟨by simp [State.memoryOffer, hb, hs], ?_⟩
    simp only [exec, execMemoryAccept, hb, onlyIf_true, acceptAccess, hs]
  · rcases h with h | h
    · rw [← busRuns_eq_false_iff] at h
      exact ⟨by simp [State.memoryOffer, h], by simp [exec, execMemoryAccept, h]⟩
    · refine ⟨by simp [State.memoryOffer, h], ?_⟩
      rw [exec, execMemoryAccept, onlyIf_of_fixed]
      simp only [acceptAccess, h]

/-- Settles O23: an answer reaches the slot of the oldest outstanding access, as the law of the queue gives it. -/
theorem memoryAnswerReachesItsSlot : Obligations.MemoryAnswerReachesItsSlot := by
  refine ⟨fun s tag st data h => ?_, fun s tag st data n rest before x behind hb hq ho hs hn => ?_⟩
  · rcases h with h | h
    · rw [← busRuns_eq_false_iff] at h
      simp [exec, execMemoryAnswer, h]
    · rw [exec, execMemoryAnswer, onlyIf_of_fixed]
      simp only [takeAnswer, h]
  · subst hn
    rw [← busRuns_iff] at hb
    have hslot := ((queueLaw_iff s).mp hq).fits x (by simp [hs])
    have hinFlight : 0 < s.msi.inFlight x.number := by rw [inFlight_answer ho, if_pos rfl]; omega
    have hp := issued_of_inFlight hslot hinFlight
    have hone : 1 ≤ x.awaited := (slotFits_awaited hslot).symm ▸ hinFlight
    have hnow : matchedStatus x.number tag st = if tag = x.number then st else .error := by
      simp [matchedStatus]
    have htake := takeAnswer_of_fits hq hs ho tag st data
    rw [hnow, Slot.answered_eq hp hone] at htake
    rw [exec, execMemoryAnswer, hb, onlyIf_true]
    exact congrArg _ htake

/-- Settles O24: the response of a DONE head is offered, and taking it releases the head. -/
theorem responseTakenReleasesTheHead : Obligations.ResponseTakenReleasesTheHead := by
  refine ⟨fun s x rest st hb hs hp hst => ?_, fun s h => ?_⟩
  · rw [← busRuns_iff] at hb
    constructor
    · simp [State.responseOffer, hs, hb, hp, Slot.response, hst]
    · simp only [exec, execResponseTaken, hb, onlyIf_true, takeResponse, hs, hp]
      rfl
  · rcases h with h | h
    · rw [← busRuns_eq_false_iff] at h
      refine ⟨?_, by simp [exec, execResponseTaken, h]⟩
      cases hs : s.transit.slots <;> simp [State.responseOffer, hs, h]
    · rw [exec, execResponseTaken]
      cases hs : s.transit.slots with
      | nil => exact ⟨by simp only [State.responseOffer, hs], by rw [onlyIf_of_fixed]; simp only [takeResponse, hs]⟩
      | cons x rest =>
        have hp := h x rest hs
        exact ⟨by simp [State.responseOffer, hs, hp], by rw [onlyIf_of_fixed]; simp [takeResponse, hs, hp]⟩

/-! ### Reads (R28, R138 to R141) -/

/-- A slot placed in the state whose request was taken off. -/
theorem placeSlot_setOffered (x : Slot) (s : State) : placeSlot x (s.setOffered none) =
    s.withPlaced { x with number := s.freeSlot, progress := if x.disposition.needsMemory then .decided else .done } :=
  rfl

/-- The status of a read POISONED in SUPERVISE at a STALE or FAILED entry; none is FORWARD (R139). -/
def ReadPolicy.poisonStatus : ReadPolicy → Option Answer
  | .pass => none
  | .poison => some .okay
  | .poisonError => some .error

/-- The table of R139. -/
theorem readDecision_supervise (e : Entry) : readDecision .supervise e =
    if e.state = .stale ∨ e.state = .failed then e.defn.readPolicy.poisonStatus else none := by
  cases hs : e.state <;> cases hp : e.defn.readPolicy <;> simp [readDecision, hs, hp, ReadPolicy.poisonStatus]

/-- A read at a covered word outside CONFIGURE: FORWARD or POISONED, as the tables of R139 and R140 decide. -/
theorem acceptRead_of_covered {s : State} {r : ReadRequest} {k : Index} (hd : s.esc.device ≠ .configure)
    (hl : s.lookup r.addr = some k) : acceptRead r s = placeSlot
      ((readDecision s.esc.device (s.entry k)).elim (readSlot r (some k))
        fun a => (readSlot r (some k)).toPoisoned k (s.entry k).defn s.mlc.poison a) s := by
  unfold acceptRead
  rw [hl]
  cases hdev : s.esc.device with
  | configure => exact absurd hdev hd
  | supervise | lockdown =>
    dsimp only
    split
    · rename_i hdec; rw [hdec]; rfl
    · rename_i hdec; rw [hdec]; rfl

/-- Settles O10: one slot placed for each way of a read. -/
theorem readsArePlaced : Obligations.ReadsArePlaced := by
  intro s r ht slot poisoned
  have hlookup : (s.setOffered none).lookup r.addr = s.lookup r.addr := lookup_congr rfl _
  rw [exec_read_of_takes ht]
  have hcovered : ∀ k, s.esc.device ≠ .configure → s.lookup r.addr = some k → acceptRead r (s.setOffered none) =
      s.withPlaced ((readDecision s.esc.device (s.entry k)).elim (slot (some k)) (poisoned k)) := by
    intro k hd hl
    rw [acceptRead_of_covered (s := s.setOffered none) hd (hlookup.trans hl), placeSlot_setOffered, esc_setOffered,
      entry_setOffered]
    cases readDecision s.esc.device (s.entry k) <;> rfl
  refine ⟨fun hd => ?_, fun hd hl => ?_, fun k hd hl => ?_, fun k hd hl => ?_⟩
  · have hn := (noneDecided_of_canAccept ht.1 hd).1
    have ha : acceptRead r (s.setOffered none) = placeIssued (readSlot r (s.lookup r.addr)) (s.setOffered none) := by
      simp only [acceptRead, esc_setOffered, hd, hlookup]
    rw [ha, placeIssued_eq rfl (by simpa using hn)]
    rfl
  · have ha : acceptRead r (s.setOffered none) = placeSlot (readSlot r none) (s.setOffered none) := by
      cases hdev : s.esc.device with
      | configure => exact absurd hdev hd
      | supervise | lockdown => simp only [acceptRead, esc_setOffered, hdev, hlookup, hl]
    rw [ha]
    rfl
  · rw [hcovered k (by simp [hd]) hl, hd, readDecision_supervise]
    split
    · cases (s.entry k).defn.readPolicy <;> rfl
    · rfl
  · rw [hcovered k (by simp [hd]) hl, hd, readDecision]
    cases (s.entry k).defn.readPolicy <;> rfl

/-! ### Conversions, slot by slot (R40 to R42) -/

theorem any_words_iff (x : Slot) (p : Addr → Bool) :
    x.words.any p = true ↔ p x.addr = true ∨ ∃ a ∈ x.accesses, p a.addr = true := by
  simp [Slot.words]

/-- The conversion of a waiting write at a covered word, when its entry fails (R40). -/
theorem convertForFailure_of_write {k : Index} {e : Entry} {poison : Word} {x : Slot} (hp : x.progress = .decided)
    (hf : x.words.any e.covers = true) (hk : x.kind = .write) :
    convertForFailure k e poison x = x.toDropped k e.defn := by
  rw [convertForFailure, if_pos (by rw [hp, hf]; rfl), hk]
/-- The conversion of a waiting read at a covered word, when its entry fails, by the read policy (R40). -/
theorem convertForFailure_of_read {k : Index} {e : Entry} {poison : Word} {x : Slot} (hp : x.progress = .decided)
    (hf : x.words.any e.covers = true) (hk : x.kind = .read) : convertForFailure k e poison x =
      e.defn.readPolicy.poisonStatus.elim x (x.toPoisoned k e.defn poison) := by
  rw [convertForFailure, if_pos (by rw [hp, hf]; rfl), hk]
  cases hr : e.defn.readPolicy <;> rfl

theorem lockdownStatus_eq (p : ReadPolicy) : lockdownStatus p = if p = .poisonError then .error else .okay := by
  cases p <;> rfl

/-- The conversion of a waiting write at the entry into LOCKDOWN, by the entry that covers one of its words (R41). -/
theorem convertForLockdown_of_write {s : State} {x : Slot} {k : Index} (hp : x.progress = .decided)
    (hf : x.words.findSome? s.lookup = some k) (hk : x.kind = .write) :
    convertForLockdown s x = x.toDropped k (s.entry k).defn := by
  rw [convertForLockdown, if_pos (by rw [hp]; rfl), hf]
  simp only [hk]
/-- The conversion of a waiting read at the entry into LOCKDOWN, by the entry that covers one of its words (R41). -/
theorem convertForLockdown_of_read {s : State} {x : Slot} {k : Index} (hp : x.progress = .decided)
    (hf : x.words.findSome? s.lookup = some k) (hk : x.kind = .read) : convertForLockdown s x =
      x.toPoisoned k (s.entry k).defn s.mlc.poison
        (if (s.entry k).defn.readPolicy = .poisonError then .error else .okay) := by
  rw [convertForLockdown, if_pos (by rw [hp]; rfl), hf, ← lockdownStatus_eq]
  simp only [hk]

/-- The entry that answers a slot in LOCKDOWN: that of its word address, or else of the first access covered (log 22). -/
theorem findSome?_words (s : State) (x : Slot) :
    x.words.findSome? s.lookup = (s.lookup x.addr).or (x.accesses.findSome? fun a => s.lookup a.addr) := by
  rw [Slot.words, List.findSome?_cons, List.findSome?_map]
  cases s.lookup x.addr <;> rfl

/-- Settles O25: a slot is found by its words, and its kind and the read policy choose the answer. -/
theorem conversionTables : Obligations.ConversionTables := by
  refine ⟨fun k e poison x => ?_, fun s x => ?_⟩
  · intro dropped poisoned found
    have hfound : found ↔ x.words.any e.covers = true := (any_words_iff x e.covers).symm
    refine ⟨fun h => convertForFailure_of_not ?_, fun hp hf => ?_⟩
    · rcases h with h | h
      · exact .inl h
      · rw [hfound, List.any_eq_true, not_exists] at h
        exact .inr fun w hw => Bool.eq_false_iff.mpr fun hc => h w ⟨hw, hc⟩
    · have hread := convertForFailure_of_read (k := k) (poison := poison) hp (hfound.mp hf)
      exact ⟨convertForFailure_of_write hp (hfound.mp hf), fun hk hr => by rw [hread hk, hr]; rfl,
        fun hk hr => by rw [hread hk, hr]; rfl, fun hk hr => by rw [hread hk, hr]; rfl⟩
  · intro converted
    have hconverted : ∀ k, x.progress = .decided → x.words.findSome? s.lookup = some k → converted k :=
      fun k hp hf => ⟨convertForLockdown_of_write hp hf, convertForLockdown_of_read hp hf⟩
    refine ⟨fun h => ?_, fun hp => ⟨fun k hk => hconverted k hp ?_, fun hn ⟨a, ha, hl⟩ => ?_⟩⟩
    · rcases convertForLockdown_cases s x with ⟨he, -⟩ | ⟨hp, w, hw, k, hk, -⟩
      · exact he
      · rcases h with h | ⟨hn, hall⟩
        · exact absurd hp h
        · have hnone : x.words.findSome? s.lookup = none := by
            rw [findSome?_words, hn, Option.none_or]
            exact List.findSome?_eq_none_iff.mpr hall
          rw [List.findSome?_eq_none_iff.mp hnone w hw] at hk
          cases hk
    · rw [findSome?_words, hk, Option.some_or]
    · have hsome : (x.accesses.findSome? fun a => s.lookup a.addr).isSome :=
        List.findSome?_isSome_iff.mpr ⟨a, ha, Option.isSome_iff_ne_none.mpr hl⟩
      obtain ⟨k, hk⟩ := Option.isSome_iff_exists.mp hsome
      obtain ⟨b, hb, hbk⟩ := List.exists_of_findSome?_eq_some hk
      exact ⟨b, hb, k, hbk, hconverted k hp (by rw [findSome?_words, hn, Option.none_or, hk])⟩

/-! ### A faulted write (R62, R63, R66 to R68) -/

/-- An inspection classified as faulted is that of a faulted write, which the pairing stage has not held (R61). -/
theorem inspect_of_faulted {e : Entry} {r : WriteRequest} (h : (inspect e r).classification = .faulted) :
    (∀ q, pairingStage e r ≠ .held q) ∧ inspect e r = faultedWrite e r (pairingStage e r)
      (findings e (checkedValue e r (pairingStage e r))) (inspect e r).faults := by
  rcases inspect_cases e r with ⟨-, hi⟩ | ⟨-, p, -, hi⟩ | ⟨-, hp, hi⟩
  · rw [hi] at h; cases h
  · rw [hi] at h; cases h
  · refine ⟨hp, ?_⟩
    rcases judge_cases e r (pairingStage e r) with ⟨-, hj⟩ | ⟨-, -, hj⟩ | ⟨-, -, hj⟩
    · rw [hi, hj]; rfl
    · rw [hi, hj] at h; cases h
    · rw [hi, hj] at h; cases h

/-- A pending half outlives a write that does not reach the pairing stage, and no other judged write (R57, R113). -/
theorem pendingAfter_eq {p : Pairing} (h : ∀ q, p ≠ .held q) (before : Option PendingHalf) :
    p.pendingAfter before = if p = .notReached then before else none := by
  cases p with
  | held q => exact absurd rfl (h q)
  | notReached | complete | tornSame | tornOther => rfl

theorem captureOf_eq_candidate (e : Entry) (r : WriteRequest) (faults : BitVec 16) :
    captureOf e r (wordsReceived r (pairingStage e r)) faults
      (findings e (checkedValue e r (pairingStage e r))).cls = candidate e r faults := by
  have hcls : ∀ c : Option RealClass, (if (faults &&& kind .classFault) != 0 then c else none) =
      if faults &&& 0x0008#16 = 0 then none else c := by
    intro c
    rw [show kind .classFault = 0x0008#16 from rfl]
    by_cases hz : faults &&& 0x0008#16 = 0 <;> simp [hz]
  unfold captureOf candidate
  rw [hcls]
  cases wordsReceived r (pairingStage e r) with
  | word w => simp only [beq_iff_eq]
  | pair lo hi => rfl

/-- The word that HOLD substitutes for a word, and the pair for a pair (R35, R63). -/
theorem substitute_word (e : Entry) (r : WriteRequest) (w : Word) (good : Value) :
    substitute e r (.word w) good = ⟨.substitute, .one (goodWordAt e.defn r.addr good)⟩ := by
  simp only [substitute, goodWordAt_eq, beq_iff_eq]
theorem substitute_pair (e : Entry) (r : WriteRequest) (lo hi : Word) (good : Value) :
    substitute e r (.pair lo hi) good = ⟨.substitute, goodPair good⟩ := by
  simp only [substitute, goodPair_eq]

/-- The slot that an inspected write of entry `k` takes, for a placement (R27, R29). -/
def State.slotPlaced (s : State) (r : WriteRequest) (k : Index) (p : Placement) : Slot :=
  { number := s.freeSlot, initiator := r.initiator, tag := r.tag, kind := .write, addr := r.addr, lanes := r.lanes
    data := p.data, disposition := p.disposition, entry := some k
    progress := if p.disposition.needsMemory then .decided else .done
    awaited := 0
    status := match p.disposition with
      | .held => some .okay
      | .dropped => some (s.entry k).defn.dropAnswer
      | .forward | .substitute | .pairWrite | .poisoned => none
    answerData := none, discard := false }

/-- The slot of a faulted write as the table of R63 places it is the one its inspection places. -/
theorem faultedSlot_eq (s : State) (r : WriteRequest) (k : Index) : faultedSlot s r k =
    s.slotPlaced r k (faultedPlacement (s.entry k) r (wordsReceived r (pairingStage (s.entry k) r))) := by
  unfold faultedSlot faultedPlacement
  dsimp only
  generalize wordsReceived r (pairingStage (s.entry k) r) = words
  cases (s.entry k).defn.violation with
  | pass => cases words <;> rfl
  | drop => rfl
  | hold =>
    cases (s.entry k).lastGood with
    | none => rfl
    | some good =>
      cases words with
      | word w => exact (congrArg (s.slotPlaced r k) (substitute_word (s.entry k) r w good)).symm
      | pair lo hi => exact (congrArg (s.slotPlaced r k) (substitute_pair (s.entry k) r lo hi good)).symm

/-- The queue after an inspected write whose result keeps the static part, before a failure is taken (R29). -/
theorem slots_placeSlot_inspectedSlot {s : State} {r : WriteRequest} {k : Index} {x : Inspection}
    (hd : x.next.defn = (s.entry k).defn) :
    (placeSlot (inspectedSlot k x.next.defn r x) (applyTiming k x (s.setOffered none))).transit.slots =
      s.transit.slots ++ [s.slotPlaced r k x.placement] := by
  rw [slots_placeSlot, freeSlot_applyTiming, transit_applyTiming, hd]
  rfl

/-- Under HOLD a REAL64 entry's slot takes the words of the last good pair that the write stands for (R35, R63). -/
theorem faultedSlot_of_hold {s : State} {r : WriteRequest} {k : Index} {good : Value}
    (hv : (s.entry k).defn.violation = .hold) (hg : (s.entry k).lastGood = some good) : faultedSlot s r k =
      s.slotPlaced r k (substitute (s.entry k) r (wordsReceived r (pairingStage (s.entry k) r)) good) := by
  rw [faultedSlot_eq, faultedPlacement, hv, hg]

theorem isEarly_iff (e : Entry) : e.isEarly = true ↔ e.state = .live ∧ e.defn.period ≠ .none ∧ e.phase = .closed := by
  simp [Entry.isEarly, Definition.hasPeriod, and_assoc]

/-- What a faulted write hands on, whether it fails its entry or not (R63, R68). -/
theorem faultedWrite_fields (e : Entry) (r : WriteRequest) (p : Pairing) (f : Findings) (faults : BitVec 16) :
    (faultedWrite e r p f faults).next.defn = e.defn ∧
    (faultedWrite e r p f faults).placement = faultedPlacement e r (wordsReceived r p) ∧
    (faultedWrite e r p f faults).capture = some (captureOf e r (wordsReceived r p) faults f.cls) ∧
    (faultedWrite e r p f faults).rise = f.rise ∧ (faultedWrite e r p f faults).fall = f.fall :=
  ⟨rfl, rfl, rfl, rfl, rfl⟩

/-- A faulted write below the fail threshold fails nothing, and restarts the cycle when it is EARLY (R58, R62). -/
theorem faultedWrite_below {e : Entry} (h : e.faultCounter + 1 ≠ e.defn.threshold) (r : WriteRequest) (p : Pairing)
    (f : Findings) (faults : BitVec 16) :
    (faultedWrite e r p f faults).fails = false ∧ (faultedWrite e r p f faults).restart = e.isEarly ∧
    (faultedWrite e r p f faults).notices = f.notices ∧ (faultedWrite e r p f faults).tornAtFailure = false ∧
    (faultedWrite e r p f faults).next = { e with
      faultCounter := e.faultCounter + 1, dwellCounter := f.dwell, warn := f.warn, singleFired := f.fired
      pendingHalf := p.pendingAfter e.pendingHalf } := by
  simp [faultedWrite, h, kindIf, Entry.withFindings]

/-- A faulted write at the fail threshold makes its entry FAILED and discards its pending half (R66, R116). -/
theorem faultedWrite_at {e : Entry} (h : e.faultCounter + 1 = e.defn.threshold) (r : WriteRequest) (p : Pairing)
    (f : Findings) (faults : BitVec 16) :
    (faultedWrite e r p f faults).fails = true ∧ (faultedWrite e r p f faults).restart = false ∧
    (faultedWrite e r p f faults).notices = f.notices ||| 0x8000#16 ∧
    (faultedWrite e r p f faults).tornAtFailure = (p.pendingAfter e.pendingHalf).isSome ∧
    (faultedWrite e r p f faults).next = { e with
      state := .failed, faultCounter := e.defn.threshold, dwellCounter := f.dwell, warn := f.warn
      singleFired := f.fired, pendingHalf := none } := by
  have hkind : kind .failed = 0x8000#16 := rfl
  simp [faultedWrite, h, kindIf, hkind, Entry.withFindings]

/-- Settles O16: the fields of a faulted write, put through what an inspection changes when it is applied. -/
theorem faultedWriteEffects : Obligations.FaultedWriteEffects := by
  refine ⟨?_, ?_⟩
  · intro s r k lo hi e received hv hf hg
    have hslot := faultedSlot_of_hold (r := r) hv hg
    cases hw : wordsReceived r (pairingStage (s.entry k) r) with
    | word w =>
      rw [hw, substitute_word] at hslot
      have hdata : (faultedSlot s r k).data = .one (goodWordAt e.defn r.addr (.pair lo hi)) := by rw [hslot]; rfl
      refine ⟨by rw [hslot]; rfl, by rw [hslot]; rfl, fun _ _ ha => ?_, fun _ _ ha => ?_, fun a b hp => ?_⟩
      · rw [hdata, goodWordAt, if_neg fun h => h.2 ha]
      · rw [hdata, goodWordAt, if_pos ⟨hf, by simp [ha]⟩]
      · exact nomatch hw.symm.trans hp
    | pair a b =>
      rw [hw, substitute_pair] at hslot
      refine ⟨by rw [hslot]; rfl, by rw [hslot]; rfl, fun w hp => ?_, fun w hp => ?_, fun _ _ _ => by rw [hslot]; rfl⟩
      · exact nomatch hw.symm.trans hp
      · exact nomatch hw.symm.trans hp
  · intro s r k hi hc hn e d p f faults early
    obtain ⟨hheld, hx⟩ := inspect_of_faulted hc
    have hexec := exec_write_of_inspects hi
    have hfields := faultedWrite_fields e r p f faults
    have hbelow := faultedWrite_below hn r p f faults
    rw [← hx] at hfields hbelow
    obtain ⟨hdefn, hplacement, hcapture, hrise, hfall⟩ := hfields
    obtain ⟨hfails, hrestart, hnotices, htorn, hnext⟩ := hbelow
    rw [pendingAfter_eq hheld] at hnext
    have hearly : (inspect (s.entry k) r).restart = true ↔ early := by rw [hrestart]; exact isEarly_iff e
    have hmade := applyInspection_of_not_fails (k := k) (r := r) (s := s.setOffered none) hfails
    have hhanded := handed_applyInspection (r := r) (s := s) hdefn
    refine ⟨_, hexec, outsideInspection_applyInspection k r _ s, ?_, ?_, ?_, ?_, ?_⟩
    · rw [hmade]; simp
    · rw [hmade, entries_latchEvents, entries_placeSlot, entries_applyTiming, entries_setOffered, hnext]
      by_cases he : early
      · simp only [hfails, hearly.mpr he, he, and_self, if_true]
        rfl
      · simp only [hearly, he, and_false, if_false]
        rfl
    · rw [hmade, timer_latchEvents, timer_placeSlot, windows_applyTiming, if_neg (by simp [hfails]), hnext]
      by_cases he : early
      · rw [if_pos (hearly.mpr he), if_pos he]
        rfl
      · rw [if_neg (hearly.not.mpr he), if_neg he]
        rfl
    · rw [hmade, transit_latchEvents, slots_placeSlot_inspectedSlot hdefn, hplacement, ← faultedSlot_eq]
    · rw [hnotices, htorn, hcapture, captureOf_eq_candidate, hrise, hfall] at hhanded
      simpa [kindIf] using hhanded

/-! ### The failure of an entry by a write (R40, R41, R66, R155) -/

/-- The conversion of R41 may be read off the state that the entry into LOCKDOWN leaves. -/
theorem slots_enterLockdown_self (reason : LockdownReason) (s : State) : (enterLockdown reason s).transit.slots =
    s.transit.slots.map (convertForLockdown (enterLockdown reason s)) := by
  rw [slots_enterLockdown, convertForLockdown_congr (s := s) (t := enterLockdown reason s)
    (fun k => by rw [entry_enterLockdown]; rfl) (lookup_enterLockdown reason s) (by simp)]

/-- A failure whose reaction is not LOCKDOWN converts the queue and acts on the groups (R40, R155). -/
theorem slots_takeFailure_of_ne {k : Index} {s : State} (h : (s.entry k).defn.reaction ≠ .lockdown) :
    (takeFailure k s).transit.slots = s.transit.slots.map (convertForFailure k (s.entry k) s.mlc.poison) := by
  rw [takeFailure_of_ne h, slots_failureConversion, transit_setEscalation, entry_setEscalation, mlc_setEscalation]
theorem esc_takeFailure_of_ne {k : Index} {s : State} (h : (s.entry k).defn.reaction ≠ .lockdown) :
    (takeFailure k s).esc = applyReaction k (s.entry k).defn.reaction s.esc := by
  rw [takeFailure_of_ne h, esc_failureConversion, esc_setEscalation]

/-- A failure with reaction LOCKDOWN converts the queue by R40, and then by R41 (R156). -/
theorem slots_takeFailure_of_lockdown {k : Index} {s : State} (h : (s.entry k).defn.reaction = .lockdown) :
    (takeFailure k s).transit.slots =
      (s.transit.slots.map (convertForFailure k (s.entry k) s.mlc.poison)).map
        (convertForLockdown (takeFailure k s)) := by
  rw [takeFailure_of_lockdown h, slots_enterLockdown_self, slots_failureConversion, transit_setEscalation,
    entry_setEscalation, mlc_setEscalation]
/-- Both groups hold the failed member, and are TRIPPED, in LOCKDOWN (R151, R155). -/
theorem esc_takeFailure_of_lockdown {k : Index} {s : State} (h : (s.entry k).defn.reaction = .lockdown) :
    (takeFailure k s).esc = ⟨.lockdown, .entry k, s.esc.groupA.memberFailed k, s.esc.groupB.memberFailed k⟩ := by
  rw [takeFailure_of_lockdown h, esc_enterLockdown, esc_failureConversion, esc_setEscalation]
  rfl

/-- Settles O17: the fields of a faulted write at the threshold, and then the failure that its entry takes. -/
theorem faultedWriteReachesThreshold : Obligations.FaultedWriteReachesThreshold := by
  intro s r k hi hc ht e d p f faults left failed slots hitA hitB
  obtain ⟨hheld, hx⟩ := inspect_of_faulted hc
  have hfields := faultedWrite_fields e r p f faults
  have hat := faultedWrite_at ht r p f faults
  rw [← hx] at hfields hat
  obtain ⟨hdefn, hplacement, hcapture, hrise, hfall⟩ := hfields
  obtain ⟨hfails, hrestart, hnotices, htorn, hnext⟩ := hat
  rw [pendingAfter_eq hheld] at htorn
  have hhanded := handed_applyInspection (r := r) (s := s) hdefn
  have hmade := applyInspection_of_fails (k := k) (r := r) (s := s.setOffered none) hfails
  set u : State := latchEvents k _ _ _ _ _ with hu
  have hentry : ∀ j, u.entry j = if k = j then failed else s.entry j := fun j => by
    rw [hu, entry_latchEvents, entry_placeSlot, entry_applyTiming]
    simp only [hrestart, Bool.false_eq_true, and_false, if_false, hnext, entry_setOffered]
    rfl
  have hself : u.entry k = failed := (hentry k).trans (if_pos rfl)
  have hother : ∀ j, j ≠ k → u.entry j = s.entry j := fun j hj => (hentry j).trans (if_neg (Ne.symm hj))
  have hqueue : u.transit.slots = s.transit.slots ++ [faultedSlot s r k] := by
    rw [hu, transit_latchEvents, slots_placeSlot_inspectedSlot hdefn, hplacement, ← faultedSlot_eq]
  have hesc : u.esc = s.esc := by rw [hu]; simp
  have hconverted : u.transit.slots.map (convertForFailure k (u.entry k) u.mlc.poison) = slots := by
    rw [hself, hqueue, show u.mlc = s.mlc by rw [hu]; simp]
  have hreaction : (u.entry k).defn.reaction = d.reaction := by rw [hself]
  have hgroups : d.reaction ≠ .lockdown → (takeFailure k u).esc = applyReaction k d.reaction s.esc := fun hr => by
    rw [esc_takeFailure_of_ne (by rwa [hreaction]), hreaction, hesc]
  refine ⟨takeFailure k u, by rw [exec_write_of_inspects hi, hmade], ?_, ?_, ?_, ?_, fun hr => ⟨fun j hj => ?_, ?_⟩,
    fun hr => ?_, fun hr => ?_, fun hr => ?_, fun hr => ?_, fun hr => ⟨fun j hj => ?_, ?_, ?_⟩⟩
  · rw [← hmade]; exact outsideInspection_applyInspection k r _ s
  · rw [entry_takeFailure, hself]
    split <;> rfl
  · rw [timer_takeFailure, hu, timer_latchEvents, timer_placeSlot, windows_applyTiming, if_pos hfails]
    rfl
  · have hkinds : ∀ a b : BitVec 16, a ||| (b ||| 0x8000#16) ||| kindIf left.isSome .torn =
        a ||| b ||| 0x8000#16 ||| if left = none then 0 else 0x0020#16 := fun a b => by
      rw [← BitVec.or_assoc]
      cases left <;> rfl
    rw [hmade, hnotices, htorn, hcapture, captureOf_eq_candidate, hrise, hfall, hkinds] at hhanded
    exact hhanded
  · rw [entry_takeFailure, hreaction, if_neg hr, hother j hj]
  · rw [slots_takeFailure_of_ne (by rwa [hreaction]), hconverted]
  · rw [hgroups (by simp [hr]), hr]; rfl
  · rw [hgroups (by simp [hr]), hr]; rfl
  · rw [hgroups (by simp [hr]), hr]; rfl
  · rw [hgroups (by simp [hr]), hr]; rfl
  · rw [entry_takeFailure, hreaction, if_pos hr, hother j hj]; rfl
  · rw [slots_takeFailure_of_lockdown (by rw [hreaction, hr]), hconverted]
  · rw [esc_takeFailure_of_lockdown (by rw [hreaction, hr]), hesc]; rfl

end Sys2Proof.Machine

/-! PROOF. The inspection of a write: the pairing stage, a first half that is held, the fault kinds and the classification,
and what a clean and a suspect write do. -/
namespace Sys2Proof.Machine

/-! ### The pairing stage (R54, R55, R57, R107 to R113) -/

theorem isPartial_iff (r : WriteRequest) : r.isPartial = true ↔ r.lanes ≠ 15#4 := by simp [WriteRequest.isPartial]
theorem isForeign_iff (d : Definition) (r : WriteRequest) :
    d.isForeign r = true ↔ d.allowsWriter r.initiator = false := by simp [Definition.isForeign]
theorem isTorn_iff (p : Pairing) : p.isTorn = true ↔ p = .tornSame ∨ ∃ lo hi, p = .tornOther lo hi := by
  cases p <;> simp [Pairing.isTorn]

/-- A half that comes with no half pending is FIRST (R107, R108). -/
theorem pairingStage_of_none {e : Entry} {r : WriteRequest} (hf : e.defn.format = .real64) (hl : r.lanes = 15#4)
    (hw : e.defn.allowsWriter r.initiator = true) (hp : e.pendingHalf = none) :
    pairingStage e r = .held ⟨e.defn.halfOf r.addr, r.data, r.initiator⟩ := by
  simp [pairingStage, WriteRequest.isPartial, Definition.isForeign, hf, hl, hw, hp]

/-- A half that comes with a half pending: the half and the initiator decide between REPLACE, TORN_SAME, COMPLETE and
TORN_OTHER (R107). -/
theorem pairingStage_of_some {e : Entry} {r : WriteRequest} {p : PendingHalf} (hf : e.defn.format = .real64)
    (hl : r.lanes = 15#4) (hw : e.defn.allowsWriter r.initiator = true) (hp : e.pendingHalf = some p) :
    pairingStage e r =
      if p.half = e.defn.halfOf r.addr then
        if p.initiator = r.initiator then .held ⟨p.half, r.data, p.initiator⟩ else .tornSame
      else
        if p.initiator = r.initiator then
          .complete (inOrder (e.defn.halfOf r.addr) r.data p.word).1 (inOrder (e.defn.halfOf r.addr) r.data p.word).2
        else
          .tornOther (inOrder (e.defn.halfOf r.addr) r.data p.word).1
            (inOrder (e.defn.halfOf r.addr) r.data p.word).2 := by
  simp [pairingStage, WriteRequest.isPartial, Definition.isForeign, hf, hl, hw, hp]

/-- The low half of a pair is the one at its base (R107). -/
theorem halfOf_eq_low (d : Definition) (a : Addr) : d.halfOf a = .low ↔ a = d.base := by simp [Definition.halfOf]

/-- Settles O11: the guard of the pairing stage, and then its table, outcome by outcome. -/
theorem pairingDecision : Obligations.PairingDecision := by
  refine ⟨fun e r h => pairingStage_eq_notReached.mpr ?_, ?_⟩
  · rintro ⟨hf, hp, hn⟩
    rcases h with h | h | h
    · exact h hf
    · rw [(isPartial_iff r).mpr h] at hp; cases hp
    · rw [(isForeign_iff e.defn r).mpr h] at hn; cases hn
  · intro e r hf hl hw h both
    refine ⟨halfOf_eq_low e.defn r.addr, pairingStage_of_none hf hl hw, fun p hp => ?_⟩
    have hstage := pairingStage_of_some hf hl hw hp
    refine ⟨fun hh hi => ?_, fun hh hi => ?_, fun hh hi => ?_, fun hh hi => ?_⟩
    · rw [hstage, if_pos hh, if_pos hi, hh, hi]
    · rw [hstage, if_neg hh, if_pos hi]; rfl
    · rw [hstage, if_pos hh, if_neg hi]
    · rw [hstage, if_neg hh, if_neg hi]; rfl

/-! ### A first half (R57, R108, R109) -/

/-- Settles O12: FIRST and REPLACE both hold the write, and a held write latches nothing and fails nothing. -/
theorem firstHalfIsHeld : Obligations.FirstHalfIsHeld := by
  intro s r k hi hs hf hl hw hpending
  have hstage : pairingStage (s.entry k) r =
      .held ⟨(s.entry k).defn.halfOf r.addr, r.data, r.initiator⟩ := by
    rcases hpending with hp | ⟨w, hp⟩
    · exact pairingStage_of_none hf hl hw hp
    · rw [pairingStage_of_some hf hl hw hp, if_pos rfl, if_pos rfl]
  have hheld : inspect (s.entry k) r =
      heldWrite (s.entry k) ⟨(s.entry k).defn.halfOf r.addr, r.data, r.initiator⟩ := by
    simp [inspect, hs, hstage]
  rw [exec_write_of_inspects hi, hheld, applyInspection_of_quiet rfl rfl rfl rfl rfl rfl rfl]
  rfl

/-! ### Fault kinds and classification (R54 to R61) -/

/-- A set of one kind under a condition, with the condition as a proposition. -/
theorem kindIf_eq {c : Bool} {P : Prop} [Decidable P] (h : c = true ↔ P) (x : EventKind) :
    kindIf c x = if P then kind x else 0 := if_congr h rfl rfl
/-- The kind of an edge: it is there when the set of edges is not empty (R90). -/
theorem kindIf_bne_zero (w : BitVec 32) (x : EventKind) : kindIf (w != 0) x = if w = 0 then 0 else kind x := by
  rw [kindIf_eq bne_iff_ne, ite_not]

/-- The fault kinds of a write, kind by kind (R54, R55, R57, R58, R59). -/
theorem writeFaults_eq (e : Entry) (r : WriteRequest) (p : Pairing) (f : Findings) : writeFaults e r p f =
    (if r.lanes ≠ 15#4 then 0x0040#16 else 0) |||
      (if e.defn.allowsWriter r.initiator = false then 0x0010#16 else 0) |||
      (if p.isTorn = true then 0x0020#16 else 0) |||
      (if e.state = .live ∧ e.defn.period ≠ .none ∧ e.phase = .closed then 0x0001#16 else 0) ||| f.faults := by
  rw [writeFaults, kindIf_eq (isPartial_iff r), kindIf_eq (isForeign_iff e.defn r), kindIf_eq Iff.rfl,
    kindIf_eq (isEarly_iff e)]
  rfl

/-- The judgement hands on the fault kinds of the write (R61). -/
theorem faults_judge (e : Entry) (r : WriteRequest) (p : Pairing) :
    (judge e r p).faults = writeFaults e r p (findings e (checkedValue e r p)) := by
  rcases judge_cases e r p with ⟨-, hj⟩ | ⟨h0, -, hj⟩ | ⟨h0, -, hj⟩
  · rw [hj]; rfl
  · rw [hj, h0]; rfl
  · rw [hj, h0]; rfl

/-- The classification of a judged write, by its fault kinds and its band outcome (R61). -/
theorem classification_judge (e : Entry) (r : WriteRequest) (p : Pairing) :
    let faults := (judge e r p).faults
    let band := (findings e (checkedValue e r p)).band
    ((judge e r p).classification = .faulted ↔ faults ≠ 0) ∧
    ((judge e r p).classification = .suspect ↔ faults = 0 ∧ band = .suspect) ∧
    ((judge e r p).classification = .clean ↔ faults = 0 ∧ band ≠ .suspect) := by
  rw [faults_judge]
  rcases judge_cases e r p with ⟨h0, hj⟩ | ⟨h0, hb, hj⟩ | ⟨h0, hb, hj⟩
  · rw [hj]
    exact ⟨iff_of_true rfl h0, iff_of_false nofun fun h => h0 h.1, iff_of_false nofun fun h => h0 h.1⟩
  · rw [hj]
    exact ⟨iff_of_false nofun fun h => h h0, iff_of_true rfl ⟨h0, hb⟩, iff_of_false nofun fun h => h.2 hb⟩
  · rw [hj]
    exact ⟨iff_of_false nofun fun h => h h0, iff_of_false nofun fun h => hb h.2, iff_of_true rfl ⟨h0, hb⟩⟩

/-- An entry that is not REAL64 judges the word of the request, when it is whole (R54, R56). -/
theorem checkedValue_of_ne_real64 {e : Entry} (hf : e.defn.format ≠ .real64) (r : WriteRequest) :
    checkedValue e r .notReached = if r.lanes = 15#4 then some (.word r.data) else none := by
  by_cases hl : r.lanes = 15#4 <;> simp [checkedValue, WriteRequest.isPartial, hf, hl]

/-- A write to a REAL64 entry that does not reach the pairing stage has no checked value (R56). -/
theorem checkedValue_of_real64 {e : Entry} (hf : e.defn.format = .real64) (r : WriteRequest) :
    checkedValue e r .notReached = none := by simp [checkedValue, hf]

/-! ### What the checks of each format find (R59, R60, R72, R92) -/

/-- Each format has its checks (R59, R60, R72). -/
theorem findings_of_numeric {e : Entry} (h : e.defn.format.numeric = true) (v : Value) :
    findings e (some v) = numericFindings e v := by
  cases hf : e.defn.format with
  | unsigned | signed | real32 | real64 => simp only [findings, hf]
  | sequence | flags => rw [hf] at h; cases h
theorem findings_of_sequence {e : Entry} (h : e.defn.format = .sequence) (v : Value) :
    findings e (some v) = sequenceFindings e v := by simp only [findings, h]
theorem findings_of_flags {e : Entry} (h : e.defn.format = .flags) (v : Value) :
    findings e (some v) = flagsFindings e v := by simp only [findings, h]

/-- The formats that have a hard band (R72). -/
theorem numeric_iff (f : Format) :
    f.numeric = true ↔ f = .unsigned ∨ f = .signed ∨ f = .real32 ∨ f = .real64 := by cases f <;> simp [Format.numeric]

/-- The fault kinds of a numeric value: CLASS and LIMIT (R82, R84). -/
theorem faults_numericFindings (e : Entry) (v : Value) : (numericFindings e v).faults =
    (if classFault e.defn (readClass e.defn.format v) = true then 0x0008#16 else 0) |||
      (if (bandCheck e.defn e.dwellCounter (readValue e.defn.format v)).1 = .limit then 0x0004#16 else 0) := by
  simp only [numericFindings]
  rw [kindIf_eq Iff.rfl, kindIf_eq beq_iff_eq]
  rfl

/-- What the check of a SEQUENCE value finds (R87). -/
theorem sequenceFindings_eq (e : Entry) (v : Value) : sequenceFindings e v =
    ⟨none, if sequenceFault e.defn e.lastGood v = true then 0x0080#16 else 0, .within, e.dwellCounter, e.warn,
      e.singleFired, 0, 0, 0⟩ := rfl

/-- What the checks of a FLAGS value find (R89, R90). -/
theorem flagsFindings_eq (e : Entry) (v : Value) : flagsFindings e v =
    ⟨none, if stickyFault e.defn e.lastGood v = true then 0x0100#16 else 0, .within, e.dwellCounter, e.warn,
      e.singleFired,
      (if riseSet e.defn e.lastGood v = 0 then 0 else 0x0800#16) |||
        (if fallSet e.defn e.lastGood v = 0 then 0 else 0x1000#16),
      riseSet e.defn e.lastGood v, fallSet e.defn e.lastGood v⟩ := by
  simp only [flagsFindings]
  rw [kindIf_bne_zero, kindIf_bne_zero]
  rfl

/-- Settles O13: the judgement of a write that is not held, its value by the pairing outcome, and the checks by format. -/
theorem faultKindsAndClassification : Obligations.FaultKindsAndClassification := by
  refine ⟨fun _ _ => rfl, fun e r hs hheld => ?_, fun e r => ⟨isTorn_iff _, fun hf => ?_, fun hf => ?_⟩, fun _ => rfl,
    fun e v => ⟨fun hf => ?_, fun hf => ?_, fun hf => ?_⟩⟩
  · rw [inspect_eq_judge hs hheld]
    obtain ⟨hfaulted, hsuspect, hclean⟩ := classification_judge e r (pairingStage e r)
    have hfaults := faults_judge e r (pairingStage e r)
    refine ⟨hfaults.trans (writeFaults_eq _ _ _ _), hfaulted, hsuspect, hclean, fun h0 => ?_⟩
    obtain ⟨v, hv⟩ := checkedValue_of_faultless hheld (hfaults.symm.trans h0)
    rw [hv]; rfl
  · have hstage : pairingStage e r = .notReached := pairingStage_eq_notReached.mpr fun h => hf h.1
    simp only [hstage]
    exact ⟨checkedValue_of_ne_real64 hf r, rfl⟩
  · refine ⟨fun hp => ?_, fun hp => ?_, fun lo hi => ⟨fun hp => ?_, fun hp => ?_⟩⟩
    · rw [hp]; exact ⟨checkedValue_of_real64 hf r, rfl⟩
    · rw [hp]; exact ⟨rfl, rfl⟩
    · rw [hp]; exact ⟨rfl, rfl⟩
    · rw [hp]; exact ⟨rfl, rfl⟩
  · rw [findings_of_numeric ((numeric_iff _).mpr hf)]
    exact ⟨rfl, faults_numericFindings e v, rfl, rfl, rfl, rfl, rfl, rfl, rfl⟩
  · rw [findings_of_sequence hf]
    exact sequenceFindings_eq e v
  · rw [findings_of_flags hf]
    exact flagsFindings_eq e v

/-! ### A write whose value is sent to memory (R64, R65, R125, R131) -/

/-- A write with a checked value acts on the words of that value (R56, R57). -/
theorem wordsReceived_of_checkedValue {e : Entry} {r : WriteRequest} {v : Value}
    (h : checkedValue e r (pairingStage e r) = some v) : wordsReceived r (pairingStage e r) = v := by
  rcases checkedValue_eq_some h with ⟨hp, rfl, -, -⟩ | ⟨lo, hi, hp, rfl, -⟩
  · rw [hp]; rfl
  · rw [hp]; rfl
/-- No pending half outlives a write with a checked value at a REAL64 entry; elsewhere none is touched (R57, R113). -/
theorem pendingAfter_of_checkedValue {e : Entry} {r : WriteRequest} {v : Value}
    (h : checkedValue e r (pairingStage e r) = some v) (before : Option PendingHalf) :
    (pairingStage e r).pendingAfter before = if e.defn.format = .real64 then none else before := by
  rcases checkedValue_eq_some h with ⟨hp, -, hf, -⟩ | ⟨lo, hi, hp, -, hf⟩
  · rw [hp, if_neg hf]; rfl
  · rw [hp, if_pos hf]; rfl

/-- An inspection classified as clean is that of a clean write of the checked value (R61, R65). -/
theorem inspect_of_clean {e : Entry} {r : WriteRequest} {v : Value} (h : (inspect e r).classification = .clean)
    (hv : checkedValue e r (pairingStage e r) = some v) :
    inspect e r = cleanWrite e r (pairingStage e r) (findings e (some v)) v := by
  obtain ⟨-, hi⟩ := inspect_of_classification h (by simp) (by simp)
  rw [hi] at h ⊢
  rcases judge_cases e r (pairingStage e r) with ⟨-, hj⟩ | ⟨-, -, hj⟩ | ⟨-, -, hj⟩
  · rw [hj] at h; cases h
  · rw [hj] at h; cases h
  · rw [hj, hv]; rfl

/-- An inspection classified as suspect is that of a suspect write, at the band outcome SUSPECT (R61, R64). -/
theorem inspect_of_suspect {e : Entry} {r : WriteRequest} {v : Value} (h : (inspect e r).classification = .suspect)
    (hv : checkedValue e r (pairingStage e r) = some v) :
    (findings e (some v)).band = .suspect ∧
      inspect e r = suspectWrite e r (pairingStage e r) (findings e (some v)) := by
  obtain ⟨-, hi⟩ := inspect_of_classification h (by simp) (by simp)
  rw [hi] at h ⊢
  rcases judge_cases e r (pairingStage e r) with ⟨-, hj⟩ | ⟨-, hb, hj⟩ | ⟨-, -, hj⟩
  · rw [hj] at h; cases h
  · rw [hv] at hb hj; exact ⟨hb, hj⟩
  · rw [hj] at h; cases h

/-- What an inspection that fails no entry does when it is applied whole (R29, R50, R125). -/
theorem exec_write_of_not_fails {s : State} {r : WriteRequest} {k : Index} (hi : s.inspects r k)
    {x : Inspection} (hx : inspect (s.entry k) r = x) (hfails : x.fails = false)
    (hdefn : x.next.defn = (s.entry k).defn) :
    ∃ t, exec r.command s = .next t ∧ outsideInspection s t ∧ t.esc = s.esc ∧
      t.entries = s.entries.set k { x.next with
        phase := if x.restart = true then restartPhase (s.entry k).defn else x.next.phase } ∧
      t.timer.windows = (if x.restart = true then s.timer.windows.set k (cycleWindow (s.entry k).defn)
        else s.timer.windows) ∧
      t.transit.slots = s.transit.slots ++ [s.slotPlaced r k x.placement] ∧
      handed k (x.faults ||| x.notices ||| kindIf x.tornAtFailure .torn) x.rise x.fall x.capture s t := by
  have hmade := applyInspection_of_not_fails (k := k) (r := r) (s := s.setOffered none) hfails
  refine ⟨_, exec_write_of_inspects hi, outsideInspection_applyInspection k r _ s, ?_, ?_, ?_, ?_, ?_⟩
  · rw [hx, hmade]; simp
  · rw [hx, hmade, entries_latchEvents, entries_placeSlot, entries_applyTiming, entries_setOffered, ← hdefn]
    cases x.restart <;> simp [hfails]
  · rw [hx, hmade, timer_latchEvents, timer_placeSlot, windows_applyTiming, if_neg (by simp [hfails]), ← hdefn]
    rfl
  · rw [hx, hmade, transit_latchEvents, slots_placeSlot_inspectedSlot hdefn]
  · rw [hx]; exact handed_applyInspection hdefn

theorem hasPeriod_iff (d : Definition) : d.hasPeriod = true ↔ d.period ≠ .none := by simp [Definition.hasPeriod]

/-- The disposition of a value sent to memory as received (R64, R65). -/
def Value.sentAs : Value → Disposition
  | .word _ => .forward
  | .pair _ _ => .pairWrite

/-- The slot of a value sent to memory as received: FORWARD of a word, PAIR_WRITE of a pair (R64, R65). -/
theorem slotPlaced_sendAsReceived (s : State) (r : WriteRequest) (k : Index) (v : Value) :
    s.slotPlaced r k (sendAsReceived v) =
      { number := s.freeSlot, initiator := r.initiator, tag := r.tag, kind := .write, addr := r.addr, lanes := r.lanes
        data := v.slotData, disposition := v.sentAs, entry := some k, progress := .decided
        awaited := 0, status := none, answerData := none, discard := false } := by
  cases v <;> rfl

/-- What a clean write of its checked value hands on (R65, R131). -/
theorem cleanWrite_fields {e : Entry} {r : WriteRequest} {v : Value}
    (hv : checkedValue e r (pairingStage e r) = some v) (f : Findings) :
    let x := cleanWrite e r (pairingStage e r) f v
    (x.restart = true ↔ e.defn.period ≠ .none) ∧ x.placement = sendAsReceived v ∧
    x.next.pendingHalf = (if e.defn.format = .real64 then none else e.pendingHalf) ∧
    x.faults ||| x.notices ||| kindIf x.tornAtFailure .torn =
      f.notices ||| if e.state = .stale then 0x4000#16 else 0 := by
  refine ⟨hasPeriod_iff e.defn, congrArg sendAsReceived (wordsReceived_of_checkedValue hv),
    pendingAfter_of_checkedValue hv e.pendingHalf, ?_⟩
  simp only [cleanWrite, kindIf_eq beq_iff_eq, kindIf_eq_zero.mpr, BitVec.or_zero]
  exact BitVec.zero_or

/-- What a suspect write of its checked value hands on (R64). -/
theorem suspectWrite_fields {e : Entry} {r : WriteRequest} {v : Value}
    (hv : checkedValue e r (pairingStage e r) = some v) (f : Findings) :
    let x := suspectWrite e r (pairingStage e r) f
    (x.restart = true ↔ e.state = .live ∧ e.phase = .opened ∧ e.defn.period ≠ .none) ∧
    x.placement = sendAsReceived v ∧
    x.next.pendingHalf = (if e.defn.format = .real64 then none else e.pendingHalf) ∧
    x.faults ||| x.notices ||| kindIf x.tornAtFailure .torn = f.notices ||| 0x2000#16 := by
  refine ⟨?_, congrArg sendAsReceived (wordsReceived_of_checkedValue hv),
    pendingAfter_of_checkedValue hv e.pendingHalf, ?_⟩
  · simp [suspectWrite, hasPeriod_iff, and_assoc]
  · simp only [suspectWrite, kindIf_eq_zero.mpr, BitVec.or_zero]
    exact BitVec.zero_or

/-- Settles O14: the fields of a clean write, put through what an inspection changes when it is applied. -/
theorem cleanWriteEffects : Obligations.CleanWriteEffects := by
  intro s r k v hi hc hv e d f
  obtain ⟨hrestart, hplacement, hpending, hkinds⟩ := cleanWrite_fields hv (findings (s.entry k) (some v))
  obtain ⟨t, hexec, houtside, hesc, hentries, hwindows, hslots, hhanded⟩ :=
    exec_write_of_not_fails hi (inspect_of_clean hc hv) rfl rfl
  refine ⟨t, hexec, houtside, hesc, ?_, ?_, ?_, ?_⟩
  · simp only [hrestart, hpending, ite_not] at hentries
    exact hentries
  · simp only [hrestart, ite_not] at hwindows
    exact hwindows
  · rw [hslots, hplacement, slotPlaced_sendAsReceived]
    rfl
  · rw [hkinds] at hhanded
    exact hhanded

/-- Settles O15: the fields of a suspect write, whose band outcome has moved the dwell counter by one (R84). -/
theorem suspectWriteEffects : Obligations.SuspectWriteEffects := by
  intro s r k v hi hc hv e d f restarts
  obtain ⟨hband, hx⟩ := inspect_of_suspect hc hv
  obtain ⟨hrestart, hplacement, hpending, hkinds⟩ := suspectWrite_fields hv (findings (s.entry k) (some v))
  have hdwell : (suspectWrite (s.entry k) r (pairingStage (s.entry k) r)
      (findings (s.entry k) (some v))).next.dwellCounter = e.dwellCounter + 1 := dwell_of_suspect hband
  obtain ⟨t, hexec, houtside, hesc, hentries, hwindows, hslots, hhanded⟩ := exec_write_of_not_fails hi hx rfl rfl
  refine ⟨t, hexec, houtside, hesc, ?_, ?_, ?_, ?_⟩
  · simp only [hrestart, hpending, hdwell] at hentries
    exact hentries
  · simp only [hrestart] at hwindows
    exact hwindows
  · rw [hslots, hplacement, slotPlaced_sendAsReceived]
    rfl
  · rw [hkinds] at hhanded
    exact hhanded

end Sys2Proof.Machine

/-! PROOF. The readings of words and limits, the order of the values compared, and the checks of class, hard band, step,
sticky bits and edges (R72 to R90). -/
namespace Sys2Proof.Machine

/-! ### The real encodings (R75, R76, R77, R79) -/

theorem extractLsb'_toNat_eq_div_mod {n : Nat} (w : BitVec n) (start len : Nat) :
    (w.extractLsb' start len).toNat = w.toNat / 2 ^ start % 2 ^ len := by
  rw [BitVec.extractLsb'_toNat, Nat.shiftRight_eq_div_pow]

theorem exponent32_eq (w : Word) : exponent32 w = w.toNat / 2 ^ 23 % 2 ^ 8 := extractLsb'_toNat_eq_div_mod w 23 8
theorem fraction32_eq (w : Word) : fraction32 w = w.toNat % 2 ^ 23 := by
  rw [fraction32, extractLsb'_toNat_eq_div_mod, pow_zero, Nat.div_one]
theorem exponent64_eq (x : Bytes8) : exponent64 x = x.toNat / 2 ^ 52 % 2 ^ 11 := extractLsb'_toNat_eq_div_mod x 52 11
theorem fraction64_eq (x : Bytes8) : fraction64 x = x.toNat % 2 ^ 52 := by
  rw [fraction64, extractLsb'_toNat_eq_div_mod, pow_zero, Nat.div_one]

/-- The five classes, each by the two fields (R77). -/
theorem classOf_iff {eMax : Nat} (h : 0 < eMax) (e f : Nat) :
    (classOf eMax e f = .zero ↔ e = 0 ∧ f = 0) ∧ (classOf eMax e f = .subnormal ↔ e = 0 ∧ f ≠ 0) ∧
    (classOf eMax e f = .normal ↔ e ≠ 0 ∧ e ≠ eMax) ∧
    (classOf eMax e f = .infinite ↔ e = eMax ∧ f = 0) ∧ (classOf eMax e f = .nan ↔ e = eMax ∧ f ≠ 0) := by
  rcases Nat.eq_zero_or_pos e with rfl | he
  · have htop : 0 ≠ eMax := h.ne
    by_cases hf : f = 0 <;> simp [classOf, hf, htop]
  · have he0 : e ≠ 0 := he.ne'
    by_cases htop : e = eMax <;> by_cases hf : f = 0 <;> simp [classOf, he0, htop, hf, h.ne']

/-- Below the largest exponent an encoding is a finite number: its magnitude with its sign (R75, R76). -/
theorem numOf_of_lt {eMax e : Nat} (h : e < eMax) (negative : Bool) (f m : Nat) :
    numOf negative (classOf eMax e f) m = .fin ((if negative then -1 else 1) * (m : Int)) := by
  have hsign : (if negative then -(m : Int) else m) = (if negative then -1 else 1) * (m : Int) := by
    cases negative <;> simp
  obtain ⟨-, -, -, hinf, hnan⟩ := classOf_iff (Nat.zero_lt_of_lt h) e f
  rw [← hsign]
  cases hc : classOf eMax e f with
  | zero | subnormal | normal => rfl
  | infinite => exact absurd (hinf.mp hc).1 h.ne
  | nan => exact absurd (hnan.mp hc).1 h.ne

/-- At the largest exponent an encoding is an infinity or a NaN, by its fraction (R75, R76). -/
theorem numOf_top {eMax : Nat} (h : 0 < eMax) (negative : Bool) (f m : Nat) :
    numOf negative (classOf eMax eMax f) m =
      if f = 0 then (if negative then .negInf else .posInf) else .nan := by
  obtain ⟨-, -, -, hinf, hnan⟩ := classOf_iff h eMax f
  by_cases hf : f = 0
  · rw [hinf.mpr ⟨rfl, hf⟩, if_pos hf]; rfl
  · rw [hnan.mpr ⟨rfl, hf⟩, if_neg hf]; rfl

theorem num32_of_exponent_le {w : Word} (h : exponent32 w ≤ 254) : num32 w = .fin ((if w.msb then -1 else 1) *
    ((if exponent32 w = 0 then fraction32 w else (2 ^ 23 + fraction32 w) * 2 ^ (exponent32 w - 1)) * 2 ^ 925 : Nat)) :=
  numOf_of_lt (Nat.lt_succ_of_le h) _ _ _

theorem num32_of_exponent_top {w : Word} (h : exponent32 w = 255) :
    num32 w = if fraction32 w = 0 then (if w.msb then .negInf else .posInf) else .nan := by
  rw [num32, class32, h]
  exact numOf_top (by decide) _ _ _

theorem num64_of_exponent_le {x : Bytes8} (h : exponent64 x ≤ 2046) : num64 x = .fin ((if x.msb then -1 else 1) *
    (if exponent64 x = 0 then fraction64 x else (2 ^ 52 + fraction64 x) * 2 ^ (exponent64 x - 1) : Nat)) :=
  numOf_of_lt (Nat.lt_succ_of_le h) _ _ _

theorem num64_of_exponent_top {x : Bytes8} (h : exponent64 x = 2047) :
    num64 x = if fraction64 x = 0 then (if x.msb then .negInf else .posInf) else .nan := by
  rw [num64, class64, h]
  exact numOf_top (by decide) _ _ _

/-- An encoding of exponent and fraction 0 is the number 0, whatever its sign (R80). -/
theorem num32_of_zero {w : Word} (he : exponent32 w = 0) (hf : fraction32 w = 0) : num32 w = .fin 0 := by
  rw [num32_of_exponent_le (by omega), if_pos he, hf, Nat.zero_mul, Nat.cast_zero, mul_zero]
theorem num64_of_zero {x : Bytes8} (he : exponent64 x = 0) (hf : fraction64 x = 0) : num64 x = .fin 0 := by
  rw [num64_of_exponent_le (by omega), if_pos he, hf, Nat.cast_zero, mul_zero]

/-! ### Values and limits by their format (R73, R74, R81) -/

/-- A pair is read as one encoding, with the low half in bits 31..0 and the high half in bits 63..32 (R76). -/
theorem encoding64_pair (lo hi : Word) : (Value.pair lo hi).encoding64.extractLsb' 0 32 = lo ∧
    (Value.pair lo hi).encoding64.extractLsb' 32 32 = hi :=
  ⟨BitVec.extractLsb'_append_eq_right, BitVec.extractLsb'_append_eq_left⟩

theorem readClass_eq_none {f : Format} (h32 : f ≠ .real32) (h64 : f ≠ .real64) (v : Value) : readClass f v = none := by
  cases f with
  | real32 => exact absurd rfl h32
  | real64 => exact absurd rfl h64
  | unsigned | signed | sequence | flags => rfl

/-! ### The order of the values compared (R80) -/

theorem fin_below_fin (a b : Int) : (Num.fin a).below (.fin b) = decide (a < b) := rfl

/-- The negative infinity is below every other number, and nothing is below it. -/
theorem negInf_below {x : Num} (hnan : x ≠ .nan) (hinf : x ≠ .negInf) : Num.negInf.below x = true := by
  cases x with
  | negInf => exact absurd rfl hinf
  | nan => exact absurd rfl hnan
  | fin _ | posInf => rfl
theorem below_negInf (x : Num) : x.below .negInf = false := by cases x <;> rfl

/-- Every other number is below the positive infinity, which is below nothing. -/
theorem below_posInf {x : Num} (hnan : x ≠ .nan) (hinf : x ≠ .posInf) : x.below .posInf = true := by
  cases x with
  | posInf => exact absurd rfl hinf
  | nan => exact absurd rfl hnan
  | negInf | fin _ => rfl
theorem posInf_below (x : Num) : Num.posInf.below x = false := by cases x <;> rfl

theorem below_nan (x : Num) : x.below .nan = false := by cases x <;> rfl
theorem nan_below (x : Num) : Num.nan.below x = false := rfl
theorem below_self (x : Num) : x.below x = false := by
  cases x with
  | fin n => exact decide_eq_false (lt_irrefl n)
  | negInf | posInf | nan => rfl

/-! ### The class and the hard band (R82, R83, R84, R184) -/

theorem allowsClass_eq (d : Definition) (c : RealClass) : d.allowsClass c = d.classes.getLsbD (match c with
    | .zero => 0 | .subnormal => 1 | .normal => 2 | .infinite => 3 | .nan => 4) := by cases c <;> rfl

/-- A value is outside a band when a present side says so (R83). -/
theorem outsideBand_iff (lo hi : Option Num) (x : Num) : outsideBand lo hi x = true ↔
    (∃ l, lo = some l ∧ x.below l = true) ∨ ∃ h, hi = some h ∧ h.below x = true := by
  rw [outsideBand_eq, Bool.or_eq_true, Option.any_eq_true, Option.any_eq_true]

theorem bandCheck_nan (d : Definition) (n : Nat) : bandCheck d n .nan = (.within, n) := rfl

/-- A number within the hard band clears the dwell counter (R84). -/
theorem bandCheck_of_inside {d : Definition} {x : Num} (hx : x ≠ .nan)
    (h : outsideBand (d.hardLow.number d.format) (d.hardHigh.number d.format) x = false) (n : Nat) :
    bandCheck d n x = (.within, 0) := by simp [bandCheck, hx, h]

/-- A number outside the hard band is SUSPECT until the dwell is used up, and LIMIT from there on (R84). -/
theorem bandCheck_of_outside {d : Definition} {x : Num}
    (h : outsideBand (d.hardLow.number d.format) (d.hardHigh.number d.format) x = true) (n : Nat) :
    bandCheck d n x = if n + 1 < d.dwell then (.suspect, n + 1) else (.limit, d.dwell) := by
  have hx : x ≠ .nan := by
    rintro rfl
    rw [outsideBand_nan] at h
    cases h
  simp [bandCheck, hx, h]

/-- Settles O18: the real encodings, the readings by format, the order, the classes and the band, each by its rules. -/
theorem valuesClassAndBand : Obligations.ValuesClassAndBand := by
  refine ⟨?encodings, ?readings, ?order, ?classes, ?band⟩
  case encodings =>
    refine ⟨fun w => ⟨exponent32_eq w, fraction32_eq w⟩, fun _ => num32_of_exponent_le,
      fun _ => num32_of_exponent_top, fun x => ⟨exponent64_eq x, fraction64_eq x⟩, fun _ => num64_of_exponent_le,
      fun _ => num64_of_exponent_top, ?_, ?_⟩
    · rw [num32_of_zero (by decide) (by decide), num32_of_zero (by decide) (by decide)]
    · rw [num64_of_zero (by decide) (by decide), num64_of_zero (by decide) (by decide)]
  case readings =>
    refine ⟨fun w => ⟨rfl, rfl, rfl, rfl⟩, fun lo hi => ?_, fun f v h32 h64 => readClass_eq_none h32 h64 v,
      fun f b => ⟨rfl, fun hf => congrArg some (readLimit_of_integer hf b),
        fun hf => congrArg some (readLimit_of_real hf b)⟩⟩
    obtain ⟨hlow, hhigh⟩ := encoding64_pair lo hi
    exact ⟨(Value.pair lo hi).encoding64, hlow, hhigh, rfl, rfl⟩
  case order =>
    exact ⟨fin_below_fin, fun _ => negInf_below, fun _ => below_posInf, fun x => ⟨below_negInf x, posInf_below x⟩,
      fun x => ⟨below_nan x, nan_below x, below_self x⟩⟩
  case classes =>
    exact ⟨fun _ => rfl, fun _ => rfl, fun _ e f h => classOf_iff h e f, fun _ => ⟨rfl, fun _ => rfl⟩, allowsClass_eq,
      numeric_iff⟩
  case band =>
    intro d n x _ _ out
    have hout : outsideBand (d.hardLow.number d.format) (d.hardHigh.number d.format) x = true ↔ out :=
      outsideBand_iff _ _ _
    refine ⟨?nan, ?inside, ?suspect, ?limit⟩
    case nan => rintro rfl; exact bandCheck_nan d n
    case inside =>
      intro hx hin
      exact bandCheck_of_inside hx (Bool.eq_false_iff.mpr (mt hout.mp hin)) n
    case suspect =>
      intro ho hlt
      rw [bandCheck_of_outside (hout.mpr ho), if_pos hlt]
    case limit =>
      intro ho hlast
      rw [bandCheck_of_outside (hout.mpr ho), if_neg (by omega)]

/-! ### The step of a SEQUENCE value (R87) -/

theorem sequenceFault_word (d : Definition) (g w : Word) : sequenceFault d (some (.word g)) (.word w) =
    ((w - g).toNat == 0 || decide (d.maxStep < (w - g).toNat)) := rfl

/-- A step is admitted when the difference to the last good value, modulo 2^32, is in 1..maximum step. -/
theorem sequenceFault_eq_false {d : Definition} {g w : Word} : sequenceFault d (some (.word g)) (.word w) = false ↔
    1 ≤ (w - g).toNat ∧ (w - g).toNat ≤ d.maxStep := by
  rw [sequenceFault_word, Nat.one_le_iff_ne_zero, Bool.or_eq_false_iff, beq_eq_false_iff_ne, decide_eq_false_iff_not,
    not_lt]

/-- The difference of two words is the one step below 2^32 that leads from the one to the other. -/
theorem toNat_sub_eq_iff {g w : Word} {n : Nat} : (w - g).toNat = n ↔ n < 2 ^ 32 ∧ w = g + BitVec.ofNat 32 n := by
  constructor
  · rintro rfl
    exact ⟨(w - g).isLt, by rw [BitVec.ofNat_toNat, BitVec.setWidth_eq, add_sub_cancel]⟩
  · rintro ⟨hn, rfl⟩
    rw [add_sub_cancel_left, BitVec.toNat_ofNat, Nat.mod_eq_of_lt hn]

/-! ### The sticky bits and the edges of a FLAGS value (R89, R90) -/

theorem bne_zero_iff_exists_getLsbD {n : Nat} (x : BitVec n) : (x != 0) = true ↔ ∃ b, x.getLsbD b = true := by
  rw [bne_iff_ne, ← not_iff_not, not_not, not_exists]
  constructor
  · rintro rfl b
    simp
  · intro h
    exact BitVec.eq_of_getLsbD_eq fun b _ => by simpa using h b

/-- A masked bit that is set in one word and clear in another; past the width the mask has none. -/
theorem getLsbD_and_not (m x y : Word) (b : Nat) :
    (m &&& x &&& ~~~y).getLsbD b = (m.getLsbD b && x.getLsbD b && !y.getLsbD b) := by
  by_cases hb : b < 32
  · simp [hb]
  · simp [BitVec.getLsbD_of_ge m b (by omega)]

theorem stickyFault_iff (d : Definition) (g w : Word) : stickyFault d (some (.word g)) (.word w) = true ↔
    ∃ b : Nat, d.stickyMask.getLsbD b = true ∧ g.getLsbD b = true ∧ w.getLsbD b = false := by
  simp only [stickyFault, Value.lowWord, bne_zero_iff_exists_getLsbD, getLsbD_and_not, Bool.and_eq_true,
    Bool.not_eq_true', and_assoc]

theorem getLsbD_riseSet (d : Definition) (g w : Word) (b : Nat) :
    (riseSet d (some (.word g)) (.word w)).getLsbD b = (d.riseMask.getLsbD b && !g.getLsbD b && w.getLsbD b) := by
  have hset : riseSet d (some (.word g)) (.word w) = d.riseMask &&& w &&& ~~~g := by
    rw [BitVec.and_assoc, BitVec.and_comm w, ← BitVec.and_assoc]
    rfl
  rw [hset, getLsbD_and_not, Bool.and_right_comm]

theorem getLsbD_fallSet (d : Definition) (g w : Word) (b : Nat) :
    (fallSet d (some (.word g)) (.word w)).getLsbD b = (d.fallMask.getLsbD b && g.getLsbD b && !w.getLsbD b) :=
  getLsbD_and_not d.fallMask g w b

/-- Settles O19: the step by the difference of the two words, the sets bit by bit. -/
theorem sequenceAndFlagsChecks : Obligations.SequenceAndFlagsChecks := by
  refine ⟨fun _ _ => ⟨rfl, rfl, rfl, rfl⟩, fun d g w => ?step, fun d g w =>
    ⟨stickyFault_iff d g w, fun b => ⟨getLsbD_riseSet d g w b, getLsbD_fallSet d g w b⟩⟩⟩
  case step =>
    rw [sequenceFault_eq_false]
    constructor
    · rintro ⟨hone, hmax⟩
      obtain ⟨hlt, hw⟩ := toNat_sub_eq_iff.mp (rfl : (w - g).toNat = _)
      exact ⟨_, hone, hmax, hlt, hw⟩
    · rintro ⟨n, hone, hmax, hlt, hw⟩
      rw [toNat_sub_eq_iff.mpr ⟨hlt, hw⟩]
      exact ⟨hone, hmax⟩

end Sys2Proof.Machine

/-! PROOF. Paired words: the entries that may hold a pending half, and the expiries, which discard one. -/
namespace Sys2Proof.Machine

/-! ### Where a half may be pending (R106) -/

/-- What `PendingLaw` says of one entry. -/
def Entry.pendingFits (e : Entry) : Prop :=
  ∀ p, e.pendingHalf = some p →
    e.defn.format = .real64 ∧ (e.state = .armed ∨ e.state = .live ∨ e.state = .stale) ∧
    e.defn.allowsWriter p.initiator = true

/-- What `PendingLaw` says of the device: a half is pending in SUPERVISE alone. -/
def HalvesInSupervise (s : State) : Prop := ∀ k, (s.entry k).pendingHalf ≠ none → s.esc.device = .supervise

/-- The law is one of each entry, and one of the device. -/
theorem pendingLaw_iff (s : State) : PendingLaw s ↔ (∀ k, (s.entry k).pendingFits) ∧ HalvesInSupervise s := by
  constructor
  · intro h
    refine ⟨fun k p hp => ?_, fun k hk => ?_⟩
    · obtain ⟨hf, hs, -, hw⟩ := h k p hp
      exact ⟨hf, hs, hw⟩
    · obtain ⟨p, hp⟩ := Option.ne_none_iff_exists'.mp hk
      obtain ⟨-, -, hd, -⟩ := h k p hp
      exact hd
  · rintro ⟨hfits, hdevice⟩ k p hp
    obtain ⟨hf, hs, hw⟩ := hfits k p hp
    exact ⟨hf, hs, hdevice k (by simp [hp]), hw⟩

/-! ### One entry -/

theorem Entry.pendingFits_of_none {e : Entry} (h : e.pendingHalf = none) : e.pendingFits := by
  intro p hp
  rw [h] at hp
  cases hp

/-- A change that discards the half, or leaves the entry as it was, keeps what the law says of it. -/
theorem Entry.pendingFits_of_discarded {e x : Entry} (h : e.pendingFits) (hx : x.pendingHalf = none ∨ x = e) :
    x.pendingFits := by
  rcases hx with hn | rfl
  · exact Entry.pendingFits_of_none hn
  · exact h

/-- A half that stays pending while its entry stays in its state, or becomes LIVE, stays where R106 allows it. -/
theorem Entry.pendingFits_of_kept {e x : Entry} (h : e.pendingFits) (hp : x.pendingHalf = e.pendingHalf)
    (hd : x.defn = e.defn) (hs : x.state = e.state ∨ x.state = .live) : x.pendingFits := by
  intro p hx
  obtain ⟨hf, hst, hw⟩ := h p (hp ▸ hx)
  rw [hd]
  refine ⟨hf, ?_, hw⟩
  rcases hs with hs | hs <;> rw [hs]
  · exact hst
  · exact .inr (.inl rfl)

/-- A first half is that of a whole write by a member of the writer set to a REAL64 entry (R54, R55, R107). -/
theorem writer_of_held {e : Entry} {r : WriteRequest} {p : PendingHalf} (h : pairingStage e r = .held p) :
    e.defn.format = .real64 ∧ e.defn.allowsWriter p.initiator = true := by
  have hreached : e.defn.format = .real64 ∧ r.isPartial = false ∧ e.defn.isForeign r = false := by
    by_contra hn
    rw [pairingStage_eq_notReached.mpr hn] at h
    cases h
  obtain ⟨hf, hpartial, hforeign⟩ := hreached
  have hl : r.lanes = 15#4 := by simpa [WriteRequest.isPartial] using hpartial
  have hw : e.defn.allowsWriter r.initiator = true := by simpa [Definition.isForeign] using hforeign
  refine ⟨hf, ?_⟩
  cases hq : e.pendingHalf with
  | none =>
    rw [pairingStage_of_none hf hl hw hq] at h
    cases h
    exact hw
  | some q =>
    rw [pairingStage_of_some hf hl hw hq] at h
    split_ifs at h with _ hi
    cases h
    exact hi ▸ hw

/-- A judged write ends the pending half or leaves it, and brings its entry to no state but FAILED, then without a half,
or LIVE (R57, R66, R113, R131). -/
theorem pendingHalf_judge {e : Entry} {r : WriteRequest} {q : Pairing} (hq : ∀ p, q ≠ .held p) :
    (judge e r q).next.pendingHalf = none ∨
      ((judge e r q).next.pendingHalf = e.pendingHalf ∧ (judge e r q).next.defn = e.defn ∧
        ((judge e r q).next.state = e.state ∨ (judge e r q).next.state = .live)) := by
  have hafter : q.pendingAfter e.pendingHalf = none ∨ q.pendingAfter e.pendingHalf = e.pendingHalf := by
    rw [pendingAfter_eq hq]
    split
    · exact .inr rfl
    · exact .inl rfl
  rcases judge_cases e r q with ⟨-, hj⟩ | ⟨-, -, hj⟩ | ⟨-, -, hj⟩ <;> rw [hj]
  · by_cases ht : e.faultCounter + 1 = e.defn.threshold
    · obtain ⟨-, -, -, -, hnext⟩ := faultedWrite_at ht r q (findings e (checkedValue e r q)) (writeFaults e r q _)
      exact .inl (by rw [hnext])
    · obtain ⟨-, -, -, -, hnext⟩ :=
        faultedWrite_below ht r q (findings e (checkedValue e r q)) (writeFaults e r q _)
      rw [hnext]
      exact hafter.imp id fun h => ⟨h, rfl, .inl rfl⟩
  · exact hafter.imp id fun h => ⟨h, rfl, .inl rfl⟩
  · exact hafter.imp id fun h => ⟨h, rfl, .inr rfl⟩

/-- An inspected write leaves a half pending only where R106 allows it. -/
theorem Entry.pendingFits_inspect {e : Entry} (h : e.pendingFits) (hs : e.state.supervised = true)
    (r : WriteRequest) : (inspect e r).next.pendingFits := by
  rcases inspect_cases e r with ⟨-, hi⟩ | ⟨hfailed, p, hp, hi⟩ | ⟨-, hp, hi⟩ <;> rw [hi]
  · exact h
  · obtain ⟨hf, hw⟩ := writer_of_held hp
    rintro _ ⟨rfl⟩
    refine ⟨hf, ?_, hw⟩
    show e.state = .armed ∨ e.state = .live ∨ e.state = .stale
    cases hst : e.state with
    | armed | live | stale => simp
    | failed => exact absurd hst hfailed
    | empty | defined => rw [hst] at hs; cases hs
  · rcases pendingHalf_judge hp with hn | ⟨hkept, hd, hst⟩
    · exact Entry.pendingFits_of_none hn
    · exact Entry.pendingFits_of_kept h hkept hd hst

/-- A processor-side reset discards the half of every entry that could hold one (R24, R106). -/
theorem Entry.pendingHalf_afterProcessorReset (e : Entry) :
    e.afterProcessorReset.pendingHalf = none ∨ e.afterProcessorReset = e := by
  unfold Entry.afterProcessorReset
  split
  · exact .inl rfl
  · exact .inr rfl

/-- START gives a DEFINED entry no half, and leaves the others (R17). -/
theorem Entry.pendingHalf_started (e : Entry) : e.started.pendingHalf = none ∨ e.started = e := by
  unfold Entry.started
  split
  · exact .inl rfl
  · exact .inr rfl

/-- STOP leaves no half pending where R106 held (R18). -/
theorem Entry.pendingHalf_stopped {e : Entry} (h : e.pendingFits) : e.stopped.pendingHalf = none := by
  unfold Entry.stopped
  split
  · rfl
  · rename_i hs
    by_contra hn
    obtain ⟨p, hp⟩ := Option.ne_none_iff_exists'.mp hn
    obtain ⟨-, hst, -⟩ := h p hp
    exact hs ((stops_iff e.state).mpr hst)

theorem keepsEntry_pendingFits : KeepsEntry (fun _ => True) Entry.pendingFits where
  defaults := trivial
  setField _ _ _ _ _ _ := trivial
  omitField _ _ _ _ _ := trivial
  empty := Entry.pendingFits_of_none rfl
  discard _ _ := Entry.pendingFits_of_none rfl
  write e r hs h := by
    obtain ⟨ph, hph⟩ := entryAfterWrite_eq_next e r
    rw [hph]
    exact Entry.pendingFits_inspect h hs r
  late _ _ _ := Entry.pendingFits_of_none rfl
  openPhase _ _ h := h
  processorReset e h := Entry.pendingFits_of_discarded h e.pendingHalf_afterProcessorReset
  install _ _ _ _ _ := Entry.pendingFits_of_none rfl
  rearm _ _ _ _ := Entry.pendingFits_of_none rfl
  start e h := Entry.pendingFits_of_discarded h e.pendingHalf_started
  stop _ h := Entry.pendingFits_of_none (Entry.pendingHalf_stopped h)

/-! ### The device state -/

theorem halvesInSupervise_of_device {s : State} (h : s.esc.device = .supervise) : HalvesInSupervise s := fun _ _ => h
theorem halvesInSupervise_of_none {s : State} (h : ∀ k, (s.entry k).pendingHalf = none) : HalvesInSupervise s :=
  fun k hk => absurd (h k) hk

/-- No new half is pending, and the device state stays. -/
theorem HalvesInSupervise.mono {s t : State} (h : HalvesInSupervise s)
    (he : ∀ k, (t.entry k).pendingHalf = none ∨ t.entry k = s.entry k) (hd : t.esc.device = s.esc.device) :
    HalvesInSupervise t := by
  intro k hk
  rcases he k with hn | hn
  · exact absurd hn hk
  · rw [hd]; exact h k (hn ▸ hk)

/-- One entry written anew without a half; the others and the device state stay. -/
theorem HalvesInSupervise.of_entry {s t : State} {k : Index} {e : Entry} (h : HalvesInSupervise s)
    (he : ∀ j, t.entry j = if k = j then e else s.entry j) (hn : e.pendingHalf = none)
    (hd : t.esc.device = s.esc.device) : HalvesInSupervise t := by
  refine h.mono (fun j => ?_) hd
  rw [he j]
  split
  · exact .inl hn
  · exact .inr rfl

/-- The entry into LOCKDOWN discards every half (R151). -/
theorem halvesInSupervise_enterLockdown (reason : LockdownReason) (s : State) :
    HalvesInSupervise (enterLockdown reason s) :=
  halvesInSupervise_of_none fun k => by rw [entry_enterLockdown]; rfl

/-- A failure in SUPERVISE leaves the device there, or brings LOCKDOWN, which discards every half (R152). -/
theorem halvesInSupervise_takeFailure {s : State} (h : s.esc.device = .supervise) (k : Index) :
    HalvesInSupervise (takeFailure k s) := by
  by_cases hr : (s.entry k).defn.reaction = .lockdown
  · rw [takeFailure_of_lockdown hr]
    exact halvesInSupervise_enterLockdown _ _
  · exact halvesInSupervise_of_device (by rw [esc_takeFailure_of_ne hr]; exact h)

theorem halvesInSupervise_lateExpiry {s : State} (h : s.esc.device = .supervise) (k : Index) :
    HalvesInSupervise (lateExpiry k s) := by
  by_cases ht : (s.entry k).faultCounter + 1 = (s.entry k).defn.threshold
  · rw [lateExpiry_of_eq ht]
    exact halvesInSupervise_takeFailure (by simpa using h) k
  · rw [lateExpiry_of_ne ht]
    exact halvesInSupervise_of_device (by simpa using h)

theorem halvesInSupervise_applyInspection {s : State} (h : s.esc.device = .supervise) (k : Index) (r : WriteRequest)
    (x : Inspection) : HalvesInSupervise (applyInspection k r x s) := by
  cases hf : x.fails
  · rw [applyInspection_of_not_fails hf]
    exact halvesInSupervise_of_device (by simpa using h)
  · rw [applyInspection_of_fails hf]
    exact halvesInSupervise_takeFailure (by simpa using h) k

/-! ### Every operation keeps the law -/

/-- The law looks at the table and the device state alone. -/
theorem PendingLaw.of_frame {s t : State} (h : PendingLaw s) (he : t.entries = s.entries)
    (hd : t.esc.device = s.esc.device) : PendingLaw t := by
  intro k
  rw [entry_congr he k, hd]
  exact h k

/-- A write is inspected in SUPERVISE alone, and else changes neither the table nor the device state (R47 to R49). -/
theorem acceptWrite_inspects_or_keeps (r : WriteRequest) (s : State) :
    (∃ k, s.esc.device = .supervise ∧ acceptWrite r s = applyInspection k r (inspect (s.entry k) r) s) ∨
      ((acceptWrite r s).entries = s.entries ∧ (acceptWrite r s).esc = s.esc) := by
  unfold acceptWrite
  dsimp only
  split
  · exact .inr (by simp)
  · exact .inr (by simp)
  · exact .inr (by simp)
  · rename_i k hd _
    split
    · exact .inl ⟨k, hd, rfl⟩
    · exact .inr (by simp)

theorem pendingLaw_acceptWrite {s : State} (h : PendingLaw s) (hc : s.canAccept = true) (r : WriteRequest) :
    PendingLaw (acceptWrite r s) := by
  obtain ⟨hfits, -⟩ := (pendingLaw_iff s).mp h
  obtain ⟨-, hkept⟩ := keepsEntry_pendingFits.keeps.write s r hc ⟨trivial, hfits⟩
  rcases acceptWrite_inspects_or_keeps r s with ⟨k, hd, hi⟩ | ⟨he, hesc⟩
  · exact (pendingLaw_iff _).mpr ⟨hkept, by rw [hi]; exact halvesInSupervise_applyInspection hd k r _⟩
  · exact h.of_frame he (by rw [hesc])

theorem pendingLaw_acceptRead {s : State} (h : PendingLaw s) (r : ReadRequest) : PendingLaw (acceptRead r s) := by
  refine h.of_frame (entries_acceptRead r s) ?_
  unfold acceptRead
  dsimp only
  split
  · simp
  · simp
  · split <;> simp

theorem keeps_pendingLaw : Keeps PendingLaw :=
  have entries := keepsEntry_pendingFits.keeps
  have fits {s : State} (h : PendingLaw s) : True ∧ ∀ k, (s.entry k).pendingFits :=
    ⟨trivial, ((pendingLaw_iff s).mp h).1⟩
  have inSupervise {s : State} (h : PendingLaw s) : HalvesInSupervise s := ((pendingLaw_iff s).mp h).2
  have both {s : State} (he : True ∧ ∀ k, (s.entry k).pendingFits) (hd : HalvesInSupervise s) : PendingLaw s :=
    (pendingLaw_iff s).mpr ⟨he.2, hd⟩
  { link := fun s c m _ h => h.of_frame rfl rfl
    free := fun s n h => h.of_frame rfl rfl
    offered := fun s o h => h.of_frame rfl rfl
    write := fun s r hc h => pendingLaw_acceptWrite h hc r
    read := fun s r _ h => pendingLaw_acceptRead h r
    issue := fun s _ h => h.of_frame (by simp) (by simp)
    accept := fun s h => h.of_frame (entries_acceptAccess s) (by unfold acceptAccess; split <;> rfl)
    answer := fun s tag st d h => h.of_frame (entries_takeAnswer tag st d s) (by unfold takeAnswer; split <;> rfl)
    response := fun s h => h.of_frame (entries_takeResponse s)
      (by unfold takeResponse; split <;> [rfl; split <;> rfl])
    prst := fun s b h => h.of_frame rfl rfl
    porst := fun s h => h.of_frame rfl rfl
    processorReset := fun s hp h => both (entries.processorReset s hp (fits h)) <| (inSupervise h).mono (fun k => by
      rw [entry_drain, entry_rearmEntries]
      split
      · exact Entry.pendingHalf_afterProcessorReset _
      · exact .inr rfl) (by simp)
    powerOn := fun s h => both (entries.powerOn s (fits h)) <| halvesInSupervise_of_none fun k => by
      rw [entry_setPorst, entry_powerOnValues]; rfl
    divider := fun s n h => h.of_frame rfl rfl
    lower := fun s _ _ h => h.of_frame (by simp) (by simp)
    openPhase := fun s k hd h => both (entries.openPhase s k hd (fits h)) <| halvesInSupervise_of_device <| by
      simp only [State.closedEndDue, State.windowsRun, Bool.and_eq_true, beq_iff_eq] at hd
      exact hd.1.1.1.1
    late := fun s k hd h => both (entries.late s k hd (fits h)) (halvesInSupervise_lateExpiry (of_late_due hd).1 k)
    arming := fun s w h => h.of_frame rfl rfl
    poison := fun s w _ h => h.of_frame rfl rfl
    alert := fun s b h => h.of_frame rfl rfl
    draft := fun s d _ h => h.of_frame rfl rfl
    install := fun s k hd he hc ho h => both (entries.install s k hd he hc ho (fits h)) <|
      (inSupervise h).of_entry (entry_installDraft k s) rfl (by unfold installDraft; split <;> rfl)
    retire := fun s k hd h1 h2 h => both (entries.retire s k hd h1 h2 (fits h)) <|
      (inSupervise h).of_entry (entry_retireEntry k s) rfl rfl
    rearm := fun s k hd h1 h2 h => both (entries.rearm s k hd h1 h2 (fits h)) <|
      (inSupervise h).of_entry (entry_rearmEntry k s) rfl (by simp)
    start := fun s hd h => both (entries.start s hd (fits h)) (halvesInSupervise_of_device (by simp))
    stop := fun s hd hn h => both (entries.stop s hd hn (fits h)) <| halvesInSupervise_of_none fun k => by
      rw [entry_stopSupervision]; exact Entry.pendingHalf_stopped ((fits h).2 k)
    lockdown := fun s hd h => both (entries.lockdown s hd (fits h)) (halvesInSupervise_enterLockdown _ s)
    release := fun s sel _ _ h => h.of_frame (by simp) (by simp)
    force := fun s sel _ h => h.of_frame (by simp) (by simp)
    collect := fun s k _ h => h.of_frame rfl rfl
    softReset := fun s h => both (entries.softReset s (fits h)) <| halvesInSupervise_of_none fun k => by
      rw [entry_softResetAll]; rfl }

/-- Settles O54: each change of an entry keeps its half where R106 allows it, and every way out of SUPERVISE discards
the halves. -/
theorem stepKeepsPendingHalves : Obligations.StepKeepsPendingHalves :=
  fun _ _ h hx => step_preserves keeps_pendingLaw (fun _ _ hp => hp.of_frame rfl rfl) hx h

/-! ### An expiry (R115, R124, R129, R130, R132) -/

/-- An expiry that is due counts a LATE at its entry. -/
theorem exec_of_expiryRow {s : State} {k : Index} {i : Instr} (h : expiryRow s k i) :
    exec i s = .next (lateExpiry k s) := by
  rcases h with ⟨rfl, hd⟩ | ⟨rfl, hd⟩ | ⟨rfl, hd⟩
  · simp [exec, execArmingExpiry, hd]
  · simp [exec, execOpenWindowExpiry, hd]
  · simp [exec, execStalePeriodExpiry, hd]

/-- The entry after a LATE below the fail threshold, and at it (R132). -/
theorem Entry.late_of_ne {e : Entry} (h : e.faultCounter + 1 ≠ e.defn.threshold) : e.late =
    { e with state := .stale, faultCounter := e.faultCounter + 1, pendingHalf := none } := by
  rw [Entry.late, if_neg h]
theorem Entry.late_of_eq {e : Entry} (h : e.faultCounter + 1 = e.defn.threshold) : e.late =
    { e with state := .failed, faultCounter := e.defn.threshold, pendingHalf := none } := by
  rw [Entry.late, if_pos h, h]

/-- A discarded half is latched as TORN (R115). -/
theorem kindIf_isSome_torn (p : Option PendingHalf) :
    kindIf p.isSome .torn = if p = none then 0 else 0x0020#16 := by
  cases p <;> rfl

/-- The kinds of a LATE below the fail threshold, and at it (R115, R132). -/
theorem lateKinds_of_ne {e : Entry} (h : e.faultCounter + 1 ≠ e.defn.threshold) :
    lateKinds e = 0x0002#16 ||| if e.pendingHalf = none then 0 else 0x0020#16 := by
  rw [lateKinds, kindIf_isSome_torn, kindIf_eq_zero.mpr (decide_eq_false h), BitVec.or_zero]
  rfl
theorem lateKinds_of_eq {e : Entry} (h : e.faultCounter + 1 = e.defn.threshold) :
    lateKinds e = 0x8002#16 ||| if e.pendingHalf = none then 0 else 0x0020#16 := by
  rw [lateKinds, kindIf_isSome_torn, decide_eq_true h, BitVec.or_assoc, BitVec.or_comm _ (kindIf _ _),
    ← BitVec.or_assoc]
  rfl

/-- An expiry hands on the kinds of its LATE, a failure of the entry included (R166). -/
theorem handed_lateExpiry (k : Index) (s : State) :
    handed k (lateKinds (s.entry k)) 0 0 none s (lateExpiry k s) := by
  have latched : ∀ w, handed k (lateKinds (s.entry k)) 0 0 none s (latchEvents k (lateKinds (s.entry k)) 0 0 none
      ((s.setEntry k (s.entry k).late).setWindow k w)) := fun w =>
    handed_congr (s := (s.setEntry k (s.entry k).late).setWindow k w) rfl
      (by rw [entry_setWindow, entry_setEntry_self]; rfl) rfl (handed_latchEvents _ _ _ _ _ _)
  by_cases h : (s.entry k).faultCounter + 1 = (s.entry k).defn.threshold
  · rw [lateExpiry_of_eq h]
    exact handed_congr rfl rfl (events_takeFailure k _) (latched stoppedWindow)
  · rw [lateExpiry_of_ne h]
    exact latched _

/-- Settles O27: below the threshold the LATE is all there is; at it the entry takes its failure in the state that the
LATE has left. -/
theorem expiryCountsALate : Obligations.ExpiryCountsALate := by
  intro s k i hi e torn
  have hhanded := handed_lateExpiry k s
  refine ⟨lateExpiry k s, exec_of_expiryRow hi, by simp, by simp, by simp, by simp, by simp, by simp, fun hn => ?below,
    fun ht => ?reached⟩
  case below =>
    rw [lateKinds_of_ne hn] at hhanded
    refine ⟨?_, ?_, hhanded, ?_, ?_⟩ <;> rw [lateExpiry_of_ne hn]
    · rw [entries_latchEvents, entries_setWindow, entries_setEntry, Entry.late_of_ne hn]
    · rw [timer_latchEvents, windows_setWindow, timer_setEntry]; rfl
    · simp
    · simp
  case reached =>
    intro failed slots hitA hitB
    rw [lateKinds_of_eq ht] at hhanded
    rw [lateExpiry_of_eq ht] at hhanded ⊢
    set u : State := latchEvents k _ _ _ _ _ with hu
    have hself : u.entry k = failed := by
      rw [hu, entry_latchEvents, entry_setWindow, entry_setEntry_self, Entry.late_of_eq ht]
    have hother : ∀ j, j ≠ k → u.entry j = s.entry j := fun j hj => by
      rw [hu, entry_latchEvents, entry_setWindow, entry_setEntry_of_ne s (Ne.symm hj)]
    have hesc : u.esc = s.esc := by simp [hu]
    have hconverted : u.transit.slots.map (convertForFailure k (u.entry k) u.mlc.poison) = slots := by
      rw [hself, show u.transit = s.transit by simp [hu], show u.mlc = s.mlc by simp [hu]]
    have hreaction : (u.entry k).defn.reaction = e.defn.reaction := by rw [hself]
    have hgroups : e.defn.reaction ≠ .lockdown → (takeFailure k u).esc = applyReaction k e.defn.reaction s.esc :=
      fun hr => by rw [esc_takeFailure_of_ne (by rwa [hreaction]), hreaction, hesc]
    refine ⟨?_, ?_, hhanded, by simp [hu], fun hr => ⟨fun j hj => ?_, ?_⟩, fun hr => ?_, fun hr => ?_, fun hr => ?_,
      fun hr => ?_, fun hr => ⟨fun j hj => ?_, ?_, ?_⟩⟩
    · rw [entry_takeFailure, hself]
      split <;> rfl
    · rw [timer_takeFailure, hu, timer_latchEvents, windows_setWindow, timer_setEntry]; rfl
    · rw [entry_takeFailure, hreaction, if_neg hr, hother j hj]
    · rw [slots_takeFailure_of_ne (by rwa [hreaction]), hconverted]
    · rw [hgroups (by simp [hr]), hr]; rfl
    · rw [hgroups (by simp [hr]), hr]; rfl
    · rw [hgroups (by simp [hr]), hr]; rfl
    · rw [hgroups (by simp [hr]), hr]; rfl
    · rw [entry_takeFailure, hreaction, if_pos hr, hother j hj]; rfl
    · rw [slots_takeFailure_of_lockdown (by rw [hreaction, hr]), hconverted]
    · rw [esc_takeFailure_of_lockdown (by rw [hreaction, hr]), hesc]; rfl

end Sys2Proof.Machine

/-! PROOF. Refresh windows: the law of the window records, the ticks, and the events that are not due. -/
namespace Sys2Proof.Machine

/-! ### The records that an operation leaves alone -/

/-- The table, the window records, the Escalation Unit and the latches are as they were. -/
structure SameRecords (s t : State) : Prop where
  esc : t.esc = s.esc
  entries : t.entries = s.entries
  windows : t.timer.windows = s.timer.windows
  events : t.events = s.events

theorem SameRecords.refl (s : State) : SameRecords s s := ⟨rfl, rfl, rfl, rfl⟩
theorem SameRecords.trans {s t u : State} (h : SameRecords s t) (g : SameRecords t u) : SameRecords s u :=
  ⟨g.esc.trans h.esc, g.entries.trans h.entries, g.windows.trans h.windows, g.events.trans h.events⟩

/-- A slot placed, also one issued at once, is placed in the queue alone. -/
theorem sameRecords_placeSlot (x : Slot) (s : State) : SameRecords s (placeSlot x s) := ⟨rfl, rfl, rfl, rfl⟩
theorem sameRecords_issueOldest (s : State) : SameRecords s (issueOldest s) :=
  ⟨by simp, by simp, by simp, by simp⟩
theorem sameRecords_placeIssued (x : Slot) (s : State) : SameRecords s (placeIssued x s) :=
  (sameRecords_placeSlot x s).trans (sameRecords_issueOldest _)

/-- An acceptance reads the table; only an inspection, in SUPERVISE, writes it (R47 to R50, R138). -/
theorem acceptWrite_inspects_or_sameRecords (r : WriteRequest) (s : State) :
    (∃ k, s.esc.device = .supervise ∧ acceptWrite r s = applyInspection k r (inspect (s.entry k) r) s) ∨
      SameRecords s (acceptWrite r s) := by
  unfold acceptWrite
  dsimp only
  split
  · exact .inr (sameRecords_placeIssued _ s)
  · exact .inr (sameRecords_placeSlot _ s)
  · exact .inr (sameRecords_placeSlot _ s)
  · rename_i k hd _
    split
    · exact .inl ⟨k, hd, rfl⟩
    · exact .inr (sameRecords_placeSlot _ s)
theorem sameRecords_acceptRead (r : ReadRequest) (s : State) : SameRecords s (acceptRead r s) := by
  unfold acceptRead
  dsimp only
  split
  · exact sameRecords_placeIssued _ s
  · exact sameRecords_placeSlot _ s
  · split
    · exact sameRecords_placeSlot _ s
    · exact sameRecords_placeSlot _ s

/-- The way of a slot through the queue and the memory side. -/
theorem sameRecords_acceptAccess (s : State) : SameRecords s (acceptAccess s) := by
  unfold acceptAccess
  split <;> exact ⟨rfl, rfl, rfl, rfl⟩
theorem sameRecords_takeAnswer (tag : SlotNo) (st : Answer) (d : Word) (s : State) :
    SameRecords s (takeAnswer tag st d s) := by
  unfold takeAnswer
  split <;> exact ⟨rfl, rfl, rfl, rfl⟩
theorem sameRecords_takeResponse (s : State) : SameRecords s (takeResponse s) := by
  unfold takeResponse
  split
  · exact SameRecords.refl s
  · split <;> exact ⟨rfl, rfl, rfl, rfl⟩

/-! ### A window record that goes with its entry (R121, R125, R126) -/

/-- The law reads of an entry its state, its phase and its static part alone. -/
theorem windowFits_congr {e x : Entry} {w : Window} (hs : x.state = e.state) (hp : x.phase = e.phase)
    (hd : x.defn = e.defn) (h : windowFits e w) : windowFits x w := by
  unfold windowFits at h ⊢
  rw [hs, hp, hd]
  exact h

theorem windowFits_stopped {e : Entry} (h : e.state = .empty ∨ e.state = .defined ∨ e.state = .failed) :
    windowFits e stoppedWindow := by
  unfold windowFits
  rcases h with h | h | h <;> rw [h]

/-- An entry whose window does not run in its state has a STOPPED record (R121). -/
theorem eq_stopped_of_windowFits {e : Entry} {w : Window}
    (hs : e.state = .empty ∨ e.state = .defined ∨ e.state = .failed) (h : windowFits e w) : w = stoppedWindow := by
  unfold windowFits at h
  rcases hs with hs | hs | hs <;> rw [hs] at h <;> exact h

/-- The longest arming window is of 5,000 ms (R123). -/
theorem ArmingWindow.ms_le (a : ArmingWindow) : a.ms ≤ 5000 := by cases a <;> decide

/-- An entry that has become ARMED goes with the arming window that then starts (R123). -/
theorem windowFits_armingWindowFor {e : Entry} (h : e.state = .armed) (a : ArmingWindow) :
    windowFits e (armingWindowFor e.defn a) := by
  unfold windowFits armingWindowFor
  rw [h]
  by_cases hr : e.defn.arming = .timed ∧ e.defn.hasPeriod = true
  · simp [hr, a.ms_le]
  · rw [if_neg (by simpa using hr)]
    simp only [if_neg hr]

/-- A LIVE entry goes with a cycle that restarts with its phase (R125). -/
theorem windowFits_cycleWindow {e : Entry} (hs : e.state = .live) (hp : e.defn.hasPeriod = true)
    (hph : e.phase = restartPhase e.defn) : windowFits e (cycleWindow e.defn) := by
  unfold windowFits
  rw [hs, hph]
  by_cases hc : e.defn.closedMs = 0 <;> simp [hp, cycleWindow, restartPhase, hc]

/-- An entry without a refresh period goes with a STOPPED record alone (R121). -/
theorem eq_stopped_of_no_period {e : Entry} {w : Window} (hp : e.defn.hasPeriod = false) (h : windowFits e w) :
    w = stoppedWindow := by
  cases hs : e.state with
  | empty | defined | failed => exact eq_stopped_of_windowFits (by simp [hs]) h
  | armed | live => simpa [windowFits, hs, hp] using h
  | stale => simp [windowFits, hs, hp] at h

/-- The entry after a LATE goes with its stale period, or with a STOPPED record when it has failed (R129, R130,
R132). -/
theorem windowFits_late {e : Entry} {w : Window} (h : windowFits e w) (hw : w.kind ≠ .stopped) :
    windowFits e.late (if e.faultCounter + 1 = e.defn.threshold then stoppedWindow else staleWindow e.defn) := by
  have hp : e.defn.hasPeriod = true := by
    by_contra hn
    rw [eq_stopped_of_no_period (by simpa using hn) h] at hw
    exact hw rfl
  by_cases ht : e.faultCounter + 1 = e.defn.threshold
  · rw [if_pos ht, Entry.late_of_eq ht]
    exact windowFits_stopped (.inr (.inr rfl))
  · rw [if_neg ht, Entry.late_of_ne ht]
    exact ⟨hp, rfl, le_rfl⟩

/-- A tick leaves a STOPPED record and lowers the count of the others (R122). -/
theorem Window.lowered_eq (w : Window) : w.lowered = if w.kind = .stopped then w else ⟨w.kind, w.count - 1⟩ := by
  unfold Window.lowered
  cases hk : w.kind <;> simp

/-- A tick keeps a record with its entry, but at the count at which a closed window ends (R122, R126). -/
theorem windowFits_lowered {e : Entry} {w : Window} (h : windowFits e w)
    (hend : e.state = .live → e.phase = .closed → e.defn.closedMs ≠ 0 →
      w ≠ ⟨.cycle, e.defn.periodMs - e.defn.closedMs⟩) : windowFits e w.lowered := by
  rw [Window.lowered_eq]
  split
  · exact h
  · rename_i hrun
    have hstopped : w ≠ stoppedWindow := fun hw => hrun (by rw [hw]; rfl)
    unfold windowFits at h ⊢
    cases hs : e.state with
    | empty | defined | failed => rw [hs] at h; exact absurd h hstopped
    | armed =>
      simp only [hs] at h ⊢
      split at h
      · rename_i hr
        rw [if_pos hr]
        exact ⟨h.1, (Nat.sub_le _ _).trans h.2⟩
      · exact absurd h hstopped
    | live =>
      simp only [hs] at h ⊢
      split at h
      · rename_i hp
        obtain ⟨hkind, hcount, hphase⟩ := h
        rw [if_pos hp]
        refine ⟨hkind, (Nat.sub_le _ _).trans hcount, ?_⟩
        cases hph : e.phase with
        | closed =>
          simp only [hph] at hphase ⊢
          have hne : w.count ≠ e.defn.periodMs - e.defn.closedMs := fun hc =>
            hend hs hph hphase.1 (by rw [← hkind, ← hc])
          exact ⟨hphase.1, by omega⟩
        | opened =>
          simp only [hph] at hphase ⊢
          exact hphase.imp id fun hc => (Nat.sub_le _ _).trans hc
      · exact absurd h hstopped
    | stale =>
      simp only [hs] at h ⊢
      exact ⟨h.1, h.2.1, (Nat.sub_le _ _).trans h.2.2⟩

/-- The end of a closed window brings the count at which the phase is OPEN (R126). -/
theorem windowFits_openPhase {e : Entry} {w : Window} (h : windowFits e w) (hs : e.state = .live)
    (hw : w = ⟨.cycle, e.defn.periodMs - e.defn.closedMs⟩) : windowFits { e with phase := .opened } w := by
  unfold windowFits at h ⊢
  simp only [hs] at h ⊢
  split at h
  · rename_i hp
    rw [if_pos hp]
    exact ⟨h.1, h.2.1, .inr (by rw [hw])⟩
  · rw [hw] at h
    cases h

/-! ### The timing action of a write (R58, R64, R65, R125) -/

/-- What an inspected write makes of the window record of its entry: STOPPED at a failure, a new cycle at a restart. -/
def windowAfterWrite (e : Entry) (r : WriteRequest) (w : Window) : Window :=
  let x := inspect e r
  if x.fails = true then stoppedWindow else if x.restart = true then cycleWindow x.next.defn else w

/-- The window record of an inspection, in the state the inspection leaves. -/
theorem window_applyInspection (k : Index) (r : WriteRequest) (s : State) (j : Index) :
    (applyInspection k r (inspect (s.entry k) r) s).window j =
      if k = j then windowAfterWrite (s.entry k) r (s.window k) else s.window j := by
  have htiming : (applyTiming k (inspect (s.entry k) r) s).window j =
      if k = j then windowAfterWrite (s.entry k) r (s.window k) else s.window j := by
    unfold applyTiming windowAfterWrite
    dsimp only
    by_cases hk : k = j
    · subst hk
      rw [if_pos rfl]
      split
      · exact window_setWindow_self _ k _
      · split
        · exact window_setWindow_self _ k _
        · rfl
    · rw [if_neg hk]
      split
      · exact window_setWindow_of_ne _ hk _
      · split
        · exact window_setWindow_of_ne _ hk _
        · rfl
  unfold applyInspection
  dsimp only
  split
  · rw [window_takeFailure, window_latchEvents, window_placeSlot, htiming]
  · rw [window_latchEvents, window_placeSlot, htiming]

/-- Only a LIVE entry with a period is EARLY (R58). -/
theorem Entry.isEarly_iff (e : Entry) :
    e.isEarly = true ↔ e.state = .live ∧ e.defn.hasPeriod = true ∧ e.phase = .closed := by
  simp [Entry.isEarly, and_assoc]

/-- An inspection that restarts the cycle leaves its entry LIVE, with a refresh period (R58, R64, R65). -/
theorem live_of_restart {e : Entry} {r : WriteRequest} (h : (inspect e r).restart = true) :
    (inspect e r).next.state = .live ∧ (inspect e r).next.defn.hasPeriod = true := by
  rcases inspect_cases e r with ⟨-, hi⟩ | ⟨-, p, -, hi⟩ | ⟨-, -, hi⟩
  · rw [hi] at h; cases h
  · rw [hi] at h; cases h
  · rcases judge_cases e r (pairingStage e r) with ⟨-, hj⟩ | ⟨-, -, hj⟩ | ⟨-, -, hj⟩ <;> rw [hi, hj] at h ⊢
    · simp only [faultedWrite, Bool.and_eq_true, Bool.not_eq_true', Entry.isEarly_iff] at h ⊢
      obtain ⟨⟨hs, hp, -⟩, hf⟩ := h
      exact ⟨by rw [hf]; exact hs, hp⟩
    · simp only [suspectWrite, Bool.and_eq_true, beq_iff_eq] at h
      obtain ⟨⟨hs, -⟩, hp⟩ := h
      exact ⟨hs, hp⟩
    · exact ⟨rfl, h⟩

/-- An inspection that fails its entry leaves it FAILED (R66). -/
theorem failed_of_fails {e : Entry} {r : WriteRequest} (h : (inspect e r).fails = true) :
    (inspect e r).next.state = .failed := by
  rcases inspect_cases e r with ⟨-, hi⟩ | ⟨-, p, -, hi⟩ | ⟨-, -, hi⟩
  · rw [hi] at h; cases h
  · rw [hi] at h; cases h
  · rcases judge_cases e r (pairingStage e r) with ⟨-, hj⟩ | ⟨-, -, hj⟩ | ⟨-, -, hj⟩ <;> rw [hi, hj] at h ⊢
    · simp only [faultedWrite] at h ⊢
      rw [if_pos h]
    · cases h
    · cases h

/-- An inspection that neither fails its entry nor restarts the cycle leaves it with its window record: a clean write
then comes to an entry without a refresh period. -/
theorem windowFits_of_no_timing {e : Entry} {r : WriteRequest} {w : Window} (h : windowFits e w)
    (hf : (inspect e r).fails = false) (hr : (inspect e r).restart = false) : windowFits (inspect e r).next w := by
  rcases inspect_cases e r with ⟨-, hi⟩ | ⟨-, p, -, hi⟩ | ⟨-, -, hi⟩
  · rw [hi]; exact h
  · rw [hi]; exact windowFits_congr rfl rfl rfl h
  · rcases judge_cases e r (pairingStage e r) with ⟨-, hj⟩ | ⟨-, -, hj⟩ | ⟨-, -, hj⟩ <;> rw [hi, hj] at hf hr ⊢
    · refine windowFits_congr (e := e) ?_ rfl rfl h
      simp only [faultedWrite] at hf ⊢
      rw [hf]
      rfl
    · exact windowFits_congr rfl rfl rfl h
    · have hp : e.defn.hasPeriod = false := hr
      rw [eq_stopped_of_no_period hp h]
      unfold windowFits
      exact (if_neg (by simp [hp, cleanWrite, Entry.withFindings])).mpr rfl

/-- An inspected write leaves its entry with the window record that it makes (R125). -/
theorem windowFits_write {e : Entry} {r : WriteRequest} {w : Window} (h : windowFits e w) :
    windowFits (entryAfterWrite e r) (windowAfterWrite e r w) := by
  unfold entryAfterWrite windowAfterWrite
  dsimp only
  cases hf : (inspect e r).fails with
  | true =>
    rw [if_neg (by simp), if_pos rfl]
    exact windowFits_stopped (.inr (.inr (failed_of_fails hf)))
  | false =>
    rw [if_neg Bool.false_ne_true]
    cases hr : (inspect e r).restart with
    | true =>
      obtain ⟨hs, hp⟩ := live_of_restart hr
      rw [if_pos ⟨rfl, rfl⟩, if_pos rfl]
      exact windowFits_cycleWindow (e := { (inspect e r).next with phase := restartPhase (inspect e r).next.defn })
        hs hp rfl
    | false =>
      rw [if_neg (by simp), if_neg Bool.false_ne_true]
      exact windowFits_of_no_timing h hf hr

/-! ### Every operation keeps the law -/

/-- The law looks at the table and the window records alone. -/
theorem WindowLaw.of_frame {s t : State} (h : WindowLaw s) (he : t.entries = s.entries)
    (hw : t.timer.windows = s.timer.windows) : WindowLaw t := by
  intro k
  rw [entry_congr he k, State.window, hw]
  exact h k

theorem WindowLaw.of_same {s t : State} (h : WindowLaw s) (hs : SameRecords s t) : WindowLaw t :=
  h.of_frame hs.entries hs.windows

/-- One entry and its record written anew, and perhaps the pending halves of others discarded. -/
theorem WindowLaw.of_entry {s t : State} {k : Index} {e : Entry} {w : Window} (h : WindowLaw s)
    (he : ∀ j, t.entry j = (if k = j then e else s.entry j) ∨
      t.entry j = (if k = j then e else s.entry j).discardPending)
    (hw : ∀ j, t.window j = if k = j then w else s.window j) (hf : windowFits e w) : WindowLaw t := by
  intro j
  have hj : windowFits (if k = j then e else s.entry j) (t.window j) := by
    rw [hw j]
    split
    · exact hf
    · exact h j
  rcases he j with e | e <;> rw [e]
  · exact hj
  · exact windowFits_congr rfl rfl rfl hj

/-- An entry that expires has a running window (R124, R129, R130). -/
theorem running_of_late_due {s : State} {k : Index} (h : (s.armingDue k || s.openDue k || s.staleDue k) = true) :
    (s.window k).kind ≠ .stopped := by
  simp only [State.armingDue, State.openDue, State.staleDue, Bool.or_eq_true, Bool.and_eq_true, beq_iff_eq] at h
  rcases h with (⟨⟨-, hw⟩, -⟩ | ⟨⟨-, hw⟩, -⟩) | ⟨⟨-, hw⟩, -⟩ <;> rw [hw] <;> decide

/-- The end of a closed window is due in a LIVE cycle with phase CLOSED, in SUPERVISE, at a count of P - C (R126). -/
theorem closedEndDue_iff (s : State) (k : Index) : s.closedEndDue k = true ↔
    s.esc.device = .supervise ∧ s.window k = ⟨.cycle, (s.entry k).defn.periodMs - (s.entry k).defn.closedMs⟩ ∧
      (s.entry k).defn.closedMs ≠ 0 ∧ (s.entry k).state = .live ∧ (s.entry k).phase = .closed := by
  simp [State.closedEndDue, State.windowsRun, and_assoc]

theorem windowLaw_acceptWrite {s : State} (h : WindowLaw s) (r : WriteRequest) : WindowLaw (acceptWrite r s) := by
  rcases acceptWrite_inspects_or_sameRecords r s with ⟨k, -, hi⟩ | hsame
  · rw [hi]
    exact h.of_entry (entry_applyInspection k r s) (window_applyInspection k r s) (windowFits_write (h k))
  · exact h.of_same hsame

theorem windowLaw_lateExpiry {s : State} {k : Index} (h : WindowLaw s) (hk : (s.window k).kind ≠ .stopped) :
    WindowLaw (lateExpiry k s) :=
  h.of_entry (entry_lateExpiry k s) (window_lateExpiry k s) (windowFits_late (h k) hk)

theorem windowLaw_openPhase {s : State} {k : Index} (h : WindowLaw s) (hd : s.closedEndDue k = true) :
    WindowLaw (openPhase k s) := by
  obtain ⟨-, hw, -, hs, -⟩ := (closedEndDue_iff s k).mp hd
  refine h.of_entry (fun j => .inl (entry_setEntry s k j _)) (w := s.window k) (fun j => ?_)
    (windowFits_openPhase (h k) hs hw)
  show s.window j = _
  split
  · rename_i hj; rw [hj]
  · rfl

/-- A tick in SUPERVISE, once no closed window is at its end, lowers each record with its entry (R122). -/
theorem windowLaw_lowered {s : State} (h : WindowLaw s) (hd : s.esc.device = .supervise)
    (hend : ∀ k, s.closedEndDue k = false) : WindowLaw (s.mapWindows fun _ w => w.lowered) := by
  intro k
  rw [entry_mapWindows, window_mapWindows]
  refine windowFits_lowered (h k) fun hs hp hc hw => ?_
  have hdue := (closedEndDue_iff s k).mpr ⟨hd, hw, hc, hs, hp⟩
  rw [hend k] at hdue
  cases hdue

/-- A processor-side reset starts the arming window of each entry that it re-arms (R24, R136). -/
theorem windowFits_processorReset {e : Entry} {w : Window} (h : windowFits e w) (a : ArmingWindow) :
    windowFits e.afterProcessorReset (windowAfterProcessorReset e a w) := by
  unfold Entry.afterProcessorReset windowAfterProcessorReset
  split
  · exact windowFits_armingWindowFor (e := { e with state := .armed, phase := .closed, pendingHalf := none }) rfl a
  · exact h

/-- START starts the arming window of each entry that it arms (R17, R123). -/
theorem windowFits_start {e : Entry} {w : Window} (h : windowFits e w) (a : ArmingWindow) :
    windowFits e.started (windowAtStart e a w) := by
  unfold Entry.started windowAtStart
  split
  · exact windowFits_armingWindowFor (e := freshEntry e.defn .armed) rfl a
  · exact h

/-- STOP stops the window of each entry that it moves to DEFINED (R18, R134). -/
theorem windowFits_stop {e : Entry} {w : Window} (h : windowFits e w) : windowFits e.stopped (windowAtStop e w) := by
  unfold Entry.stopped windowAtStop
  split
  · exact windowFits_stopped (.inr (.inl rfl))
  · exact h

/-- An installed entry is ARMED with its arming window in SUPERVISE, and else DEFINED with the STOPPED record of an
EMPTY entry (R16). -/
theorem windowLaw_installDraft {s : State} {k : Index} (h : WindowLaw s) (he : (s.entry k).state = .empty) :
    WindowLaw (installDraft k s) := by
  by_cases hd : s.esc.device = .supervise
  · refine h.of_entry (w := armingWindowFor s.mlc.draft s.mlc.armingWindow)
      (fun j => .inl (entry_installDraft k s j)) (fun j => ?_) ?_
    · rw [window_installDraft]
      simp only [hd, and_true]
    · rw [if_pos hd]
      exact windowFits_armingWindowFor (e := freshEntry s.mlc.draft .armed) rfl _
  · refine h.of_entry (w := stoppedWindow) (fun j => .inl (entry_installDraft k s j)) (fun j => ?_) ?_
    · rw [window_installDraft, if_neg fun hk => hd hk.2]
      split
      · rename_i hj
        rw [← hj]
        exact eq_stopped_of_windowFits (.inl he) (h k)
      · rfl
    · rw [if_neg hd]
      exact windowFits_stopped (.inr (.inl rfl))

theorem keeps_windowLaw : Keeps WindowLaw where
  link _ _ _ _ h := h.of_frame rfl rfl
  free _ _ h := h.of_frame rfl rfl
  offered _ _ h := h.of_frame rfl rfl
  write _ r _ h := windowLaw_acceptWrite h r
  read s r _ h := h.of_same (sameRecords_acceptRead r s)
  issue s _ h := h.of_same (sameRecords_issueOldest s)
  accept s h := h.of_same (sameRecords_acceptAccess s)
  answer s tag st d h := h.of_same (sameRecords_takeAnswer tag st d s)
  response s h := h.of_same (sameRecords_takeResponse s)
  prst _ _ h := h.of_frame rfl rfl
  porst _ h := h.of_frame rfl rfl
  processorReset s _ h k := by
    rw [entry_drain, entry_rearmEntries, window_drain, window_rearmEntries]
    split
    · exact windowFits_processorReset (h k) _
    · exact h k
  powerOn s _ k := by
    rw [entry_setPorst, entry_powerOnValues, window_setPorst, window_powerOnValues]
    exact windowFits_stopped (.inl rfl)
  divider _ _ h := h.of_frame rfl rfl
  lower _ hd hend h := windowLaw_lowered h hd hend
  openPhase _ _ hd h := windowLaw_openPhase h hd
  late _ _ hd h := windowLaw_lateExpiry h (running_of_late_due hd)
  arming _ _ h := h.of_frame rfl rfl
  poison _ _ _ h := h.of_frame rfl rfl
  alert _ _ h := h.of_frame rfl rfl
  draft _ _ _ h := h.of_frame rfl rfl
  install _ _ _ he _ _ h := windowLaw_installDraft h he
  retire s k _ _ _ h := h.of_entry (fun j => .inl (entry_retireEntry k s j)) (window_retireEntry k s)
    (windowFits_stopped (.inl rfl))
  rearm s k _ _ _ h := h.of_entry (fun j => .inl (entry_rearmEntry k s j)) (window_rearmEntry k s)
    (windowFits_armingWindowFor (e := (s.entry k).rearmed) rfl _)
  start s _ h k := by
    rw [entry_startSupervision, window_startSupervision]
    exact windowFits_start (h k) _
  stop s _ _ h k := by
    rw [entry_stopSupervision, window_stopSupervision]
    exact windowFits_stop (h k)
  lockdown s _ h k := by
    rw [entry_enterLockdown, window_enterLockdown]
    exact windowFits_congr rfl rfl rfl (h k)
  release s sel _ _ h := h.of_frame (by simp) (by simp)
  force s sel _ h := h.of_frame (by simp) (by simp)
  collect _ _ _ h := h.of_frame rfl rfl
  softReset s _ k := by
    rw [entry_softResetAll, window_softResetAll]
    exact windowFits_stopped (.inl rfl)

/-- Settles O56: each operation leaves an entry and its window record that go together, because it starts or stops the
window with the state, and a tick takes the end of a closed window before it lowers the count past it. -/
theorem stepKeepsWindowKinds : Obligations.StepKeepsWindowKinds :=
  fun _ _ h hx => step_preserves keeps_windowLaw (fun _ _ hp => hp.of_frame rfl rfl) hx h

/-! ### The events of the windows (R122, R126) -/

/-- No window event of entry `k` is due. -/
def State.noneDue (s : State) (k : Index) : Prop :=
  s.armingDue k = false ∧ s.closedEndDue k = false ∧ s.openDue k = false ∧ s.staleDue k = false

/-- Outside SUPERVISE no window event is due (R134, R135). -/
theorem noneDue_of_not_supervise {s : State} (h : s.esc.device ≠ .supervise) (k : Index) : s.noneDue k := by
  have hw : s.windowsRun = false := by simp [State.windowsRun, h]
  simp [State.noneDue, State.armingDue, State.closedEndDue, State.openDue, State.staleDue, hw]

/-- An event whose condition does not hold leaves the state as it is (log 4). -/
theorem onlyIf_of_false {c : Bool} {f : State → State} {s : State} (h : c = false) : onlyIf c f s = s := by
  rw [h, onlyIf_false]

/-- Settles O28: each row is its event where it is due, and nothing elsewhere; at the end of a closed window the event
writes the phase. -/
theorem closedWindowEndOpensThePhase : Obligations.ClosedWindowEndOpensThePhase := by
  refine ⟨fun s k hd hs hp hc hw => ?_, fun s k => ⟨fun h => ?_, fun h => ?_, fun h => ?_, fun h => ?_⟩⟩
  · have hdue : s.closedEndDue k = true := (closedEndDue_iff s k).mpr ⟨hd, hw, hc, hs, hp⟩
    have hx : exec (.closedWindowEnd k) s = .next (onlyIf (s.closedEndDue k) (openPhase k) s) := rfl
    rw [hx, hdue, onlyIf_true]
    rfl
  · exact congrArg Host.Outcome.next (onlyIf_of_false h)
  · exact congrArg Host.Outcome.next (onlyIf_of_false h)
  · exact congrArg Host.Outcome.next (onlyIf_of_false h)
  · exact congrArg Host.Outcome.next (onlyIf_of_false h)

/-! ### Ticks (R120, R122, R134, R135) -/

/-- The state with another count in the divider. -/
def State.withDivider (s : State) (n : Nat) : State := { s with timer := { s.timer with divider := n } }
@[simp] theorem esc_withDivider (s : State) (n : Nat) : (s.withDivider n).esc = s.esc := rfl
@[simp] theorem window_withDivider (s : State) (n : Nat) (k : Index) : (s.withDivider n).window k = s.window k := rfl

/-- TICK with PORST_N released: the divider, and the ticks that it makes (R120). -/
theorem exec_tick_of_released {s : State} (hp : s.pins.porst = false) (n : Nat) : exec (.tick n) s =
    .next (ticks ((s.timer.divider + n) / 4096) (s.withDivider ((s.timer.divider + n) % 4096))) := by
  simp only [exec, execTick, hp, Bool.not_false, onlyIf_true]
  rfl

/-- A TICK that brings the divider over 4,096 once is one tick (R120). -/
theorem exec_tick_of_one {s : State} (hp : s.pins.porst = false) {n : Nat} (hlow : 4096 ≤ s.timer.divider + n)
    (hhigh : s.timer.divider + n < 8192) :
    exec (.tick n) s = .next (oneTick (s.withDivider (s.timer.divider + n - 4096))) := by
  have hcount : (s.timer.divider + n) / 4096 = 1 := by omega
  have hrest : (s.timer.divider + n) % 4096 = s.timer.divider + n - 4096 := by omega
  rw [exec_tick_of_released hp, hcount, hrest]
  rfl

/-- The window events leave the divider (R120). -/
theorem divider_takeDue (k : Index) (s : State) : (takeDue k s).timer.divider = s.timer.divider := by
  unfold takeDue
  split
  · rfl
  · rcases onlyIf_cases (s.armingDue k || s.openDue k || s.staleDue k) (lateExpiry k) s with ⟨-, e⟩ | ⟨-, e⟩ <;>
      rw [e]
    exact divider_lateExpiry k s
theorem divider_takeAllDue (s : State) : (takeAllDue s).timer.divider = s.timer.divider := by
  unfold takeAllDue
  generalize indices = l
  induction l generalizing s with
  | nil => rfl
  | cons k l ih => rw [List.foldl_cons, ih, divider_takeDue]

/-- With no window event due, none is taken, whatever the divider. -/
theorem takeDue_of_noneDue {s : State} {k : Index} (h : s.noneDue k) : takeDue k s = s := by
  obtain ⟨ha, hc, ho, hs⟩ := h
  simp [takeDue, ha, hc, ho, hs]
theorem takeAllDue_of_noneDue {s : State} (h : ∀ k, s.noneDue k) (d : Nat) :
    takeAllDue (s.withDivider d) = s.withDivider d :=
  takeAllDue_of_fixed fun k => takeDue_of_noneDue (s := s.withDivider d) (h k)

/-- A change of every window record writes the window records alone. -/
theorem mapWindows_eq (s : State) (f : Index → Window → Window) : ∃ w : Vector Window 64,
    s.mapWindows f = { s with timer := ⟨s.timer.divider, w⟩ } ∧ ∀ k : Index, w[k] = f k (s.window k) :=
  ⟨Vector.ofFn fun k => f k (s.window k), by rw [State.mapWindows], fun k => by simp⟩

/-- The window records after a tick: each that runs, in SUPERVISE, is one lower (R122, R134, R135). -/
def loweredFrom (u : State) (w : Vector Window 64) : Prop :=
  ∀ k : Index, w[k] = if u.esc.device ≠ .supervise ∨ (u.window k).kind = .stopped then u.window k
    else ⟨(u.window k).kind, (u.window k).count - 1⟩

/-- The lowering of the windows writes the window records alone. -/
theorem lowerWindows_eq (u : State) : ∃ w : Vector Window 64,
    lowerWindows u = { u with timer := ⟨u.timer.divider, w⟩ } ∧ loweredFrom u w := by
  by_cases hd : u.esc.device = .supervise
  · have hruns : u.windowsRun = true := by simp [State.windowsRun, hd]
    obtain ⟨w, hw, hk⟩ := mapWindows_eq u fun _ w => w.lowered
    refine ⟨w, by rw [lowerWindows, hruns, onlyIf_true, hw], fun k => ?_⟩
    rw [hk k, Window.lowered_eq]
    simp [hd]
  · have hruns : u.windowsRun = false := by simp [State.windowsRun, hd]
    refine ⟨u.timer.windows, by rw [lowerWindows, hruns, onlyIf_false], fun k => ?_⟩
    rw [if_pos (.inl hd)]
    rfl

/-- One tick from a state whose divider has been set: the events still due, and then the windows one lower. -/
theorem oneTick_eq (s : State) (d : Nat) : ∃ w : Vector Window 64,
    oneTick (s.withDivider d) = { takeAllDue (s.withDivider d) with timer := ⟨d, w⟩ } ∧
    loweredFrom (takeAllDue (s.withDivider d)) w := by
  obtain ⟨w, hw, hk⟩ := lowerWindows_eq (takeAllDue (s.withDivider d))
  exact ⟨w, by rw [oneTick, hw, divider_takeAllDue]; rfl, hk⟩

/-- The same with no event due: the windows of the state itself one lower. -/
theorem oneTick_of_noneDue {s : State} (h : ∀ k, s.noneDue k) (d : Nat) : ∃ w : Vector Window 64,
    oneTick (s.withDivider d) = { s with timer := ⟨d, w⟩ } ∧ loweredFrom s w := by
  obtain ⟨w, hw, hk⟩ := oneTick_eq s d
  rw [takeAllDue_of_noneDue h d] at hw hk
  exact ⟨w, hw, hk⟩

/-- Settles O26: the divider makes no tick or one; a tick takes what is due as the window rows do, and lowers the
windows. -/
theorem tickLowersRunningWindows : Obligations.TickLowersRunningWindows := by
  refine ⟨fun s n hp => ?asserted, fun s n hp hlt => ?none, fun s n hp hd => ?stopped,
    fun s n hp hd hlow hhigh hnone => ?one, fun s n hp hd hlow hhigh => ?due⟩
  case asserted =>
    simp [exec, execTick, hp]
  case none =>
    rw [exec_tick_of_released hp, Nat.div_eq_of_lt hlt, Nat.mod_eq_of_lt hlt]
    rfl
  case stopped =>
    rw [exec_tick_of_released hp, ticks_of_not_supervise (by rwa [esc_withDivider])]
    rfl
  case one =>
    rw [exec_tick_of_one hp hlow hhigh]
    generalize s.timer.divider + n - 4096 = d
    obtain ⟨w, hw, hk⟩ := oneTick_of_noneDue hnone d
    exact ⟨w, congrArg _ hw, fun k => by simpa [hd] using hk k⟩
  case due =>
    rw [exec_tick_of_one hp hlow hhigh]
    generalize s.timer.divider + n - 4096 = d
    obtain ⟨w, hw, hk⟩ := oneTick_eq s d
    exact ⟨_, w, execAll_windowRows (s.withDivider d), congrArg _ hw, hk⟩

end Sys2Proof.Machine

/-! PROOF. LOCKDOWN: what each command leaves alone there, until a reset. -/
namespace Sys2Proof.Machine

/-! ### What the link leaves alone (R177, R179) -/

theorem sameRecords_beginFrame (s : State) : SameRecords s (beginFrame s) := by
  unfold beginFrame
  split <;> exact ⟨rfl, rfl, rfl, rfl⟩
theorem sameRecords_clockIn (b : Bool) (s : State) : SameRecords s (clockIn b s) := by
  unfold clockIn
  split <;> exact ⟨rfl, rfl, rfl, rfl⟩
theorem sameRecords_clockOut (s : State) : SameRecords s (clockOut s) := by
  unfold clockOut
  split
  · exact ⟨rfl, rfl, rfl, rfl⟩
  · split <;> exact ⟨rfl, rfl, rfl, rfl⟩
theorem sameRecords_shiftBits (bits : List Bool) (s : State) : SameRecords s (shiftBits bits s) := by
  unfold shiftBits
  induction bits generalizing s with
  | nil => exact SameRecords.refl s
  | cons b bits ih => exact ((sameRecords_clockIn b s).trans (sameRecords_clockOut _)).trans (ih _)
theorem sameRecords_riseOnBadFrame (s : State) : SameRecords s (riseOnBadFrame s) := by
  unfold riseOnBadFrame
  split
  · exact ⟨rfl, rfl, rfl, rfl⟩
  · split <;> exact ⟨rfl, rfl, rfl, rfl⟩
theorem sameRecords_takeBadFrame (bits : List Bool) (s : State) : SameRecords s (takeBadFrame bits s) := by
  unfold takeBadFrame
  split
  · exact sameRecords_riseOnBadFrame s
  · dsimp only
    split
    · exact SameRecords.refl s
    · exact ((sameRecords_beginFrame s).trans (sameRecords_shiftBits bits _)).trans (sameRecords_riseOnBadFrame _)

/-! A frame comes in with the records as they were, so that a command is taken at such a state or refused: what holds of
every such state, and of the command run at one, holds after the row. -/

section frames
variable {s : State} {P : State → Prop} (same : ∀ t, SameRecords s t → P t)
include same

theorem takeFrame_of_sameRecords {fits : Byte → Byte → Bool} {run : Byte → Byte → Bytes8 → State → State}
    {code sel : Byte} {arg : Bytes8} (hr : ∀ c v a t, SameRecords s t → P (run c v a t)) :
    P (takeFrame fits run code sel arg s) := by
  rcases takeFrame_cases fits run code sel arg s with e | e | e | ⟨c, v, a, m, -, -, -, -, e⟩ <;> rw [e]
  · exact same s (SameRecords.refl s)
  · exact same _ ⟨rfl, rfl, rfl, rfl⟩
  · exact same _ ⟨rfl, rfl, rfl, rfl⟩
  · exact hr c v a _ ⟨rfl, rfl, rfl, rfl⟩

theorem takeCommand_of_sameRecords {code sel : Byte} {arg : Bytes8} {run : Byte → Bytes8 → State → State}
    (hr : ∀ v a t, SameRecords s t → P (run v a t)) : P (takeCommand code run sel arg s) :=
  takeFrame_of_sameRecords same fun _ v a t => hr v a t

theorem checked_of_sameRecords {code sel : Byte} {inRange : Bool} {run : State → State} {t : State}
    (ht : SameRecords s t) (hr : admits code sel s.esc.device = true → P (run t)) :
    P (checked code sel inRange run t) := by
  rcases checked_cases code sel inRange run t with ⟨st, e⟩ | ⟨ha, e⟩ <;> rw [e]
  · exact same _ (ht.trans ⟨rfl, rfl, rfl, rfl⟩)
  · exact hr (by rwa [ht.esc] at ha)

theorem checkedIndex_of_sameRecords {code sel : Byte} {run : Index → State → State} {t : State}
    (ht : SameRecords s t) (hr : admits code sel s.esc.device = true → ∀ k, P (run k t)) :
    P (checkedIndex code sel run t) := by
  rcases checkedIndex_cases code sel run t with ⟨st, e⟩ | ⟨ha, k, e⟩ <;> rw [e]
  · exact same _ (ht.trans ⟨rfl, rfl, rfl, rfl⟩)
  · exact hr (by rwa [ht.esc] at ha) k

end frames

/-- An event that does not come, and one that leaves the records alone. -/
theorem sameRecords_onlyIf {s : State} (c : Bool) {f : State → State} (h : c = true → SameRecords s (f s)) :
    SameRecords s (onlyIf c f s) := by
  cases c
  · exact SameRecords.refl s
  · exact h rfl

/-- A command frame, and the checks of R181, of a command that leaves the records alone. -/
theorem sameRecords_takeCommand {s : State} {code sel : Byte} {arg : Bytes8} {run : Byte → Bytes8 → State → State}
    (hr : ∀ v a t, SameRecords s t → SameRecords s (run v a t)) : SameRecords s (takeCommand code run sel arg s) :=
  takeCommand_of_sameRecords (fun _ => id) hr
theorem SameRecords.checked {s t : State} (h : SameRecords s t) {code sel : Byte} {inRange : Bool}
    {run : State → State} (hr : admits code sel s.esc.device = true → SameRecords s (run t)) :
    SameRecords s (checked code sel inRange run t) :=
  checked_of_sameRecords (fun _ => id) h hr
theorem SameRecords.checkedIndex {s t : State} (h : SameRecords s t) {code sel : Byte} {run : Index → State → State}
    (hr : admits code sel s.esc.device = true → ∀ k, SameRecords s (run k t)) :
    SameRecords s (checkedIndex code sel run t) :=
  checkedIndex_of_sameRecords (fun _ => id) h hr

/-- A reply, and a refusal, leave the records as they were. -/
theorem SameRecords.reply {s t : State} (h : SameRecords s t) (r : Reply) : SameRecords s (t.setReply r) :=
  h.trans ⟨rfl, rfl, rfl, rfl⟩

/-- A setting of the device, taken or refused. -/
theorem sameRecords_takeSetDevice {α : Type} {k sel : Byte} {value : Bytes8 → Option α} {put : α → State → State}
    {arg : Bytes8} {s : State} (hput : ∀ x t, SameRecords t (put x t)) :
    SameRecords s (takeSetDevice k value put sel arg s) := by
  refine takeFrame_of_sameRecords (fun _ => id) fun _ v a t ht => ?_
  unfold setSetting
  split
  · exact ht.reply _
  · split
    · exact ht.reply _
    · split
      · exact ht.reply _
      · exact (ht.trans (hput _ t)).reply _

/-- A draft command, taken or refused. -/
theorem sameRecords_changeDraft (code : Byte) (d : Option Definition) (s : State) :
    SameRecords s (changeDraft code d s) := by
  unfold changeDraft
  split <;> exact ⟨rfl, rfl, rfl, rfl⟩

theorem sameRecords_readEntry (part : Bytes8) (k : Index) (s : State) : SameRecords s (readEntry part k s) := by
  unfold readEntry
  split <;> exact ⟨rfl, rfl, rfl, rfl⟩

/-! ### LOCKDOWN (R135, R154) -/

/-- The device is in LOCKDOWN, where both groups are TRIPPED (R151). -/
def State.lockedDown (s : State) : Prop :=
  s.esc.device = .lockdown ∧ s.esc.groupA.state = .tripped ∧ s.esc.groupB.state = .tripped

/-- The Escalation Unit, the table and the window records are as they were. -/
def keepsTable (s t : State) : Prop := t.esc = s.esc ∧ t.entries = s.entries ∧ t.timer.windows = s.timer.windows

theorem SameRecords.keepsTable {s t : State} (h : SameRecords s t) : keepsTable s t := ⟨h.esc, h.entries, h.windows⟩

/-- The commands that are not admitted in LOCKDOWN: INSTALL, RETIRE, REARM, START, STOP, LOCKDOWN and
RELEASE_GROUP (R182). -/
def refusedInLockdown : List Byte := [0x13#8, 0x14#8, 0x15#8, 0x20#8, 0x21#8, 0x22#8, 0x23#8]

theorem not_admits_lockdown {code : Byte} (h : code ∈ refusedInLockdown) (sel : Byte) :
    admits code sel .lockdown = false := by
  simp only [refusedInLockdown, List.mem_cons, List.not_mem_nil, or_false] at h
  rcases h with rfl | rfl | rfl | rfl | rfl | rfl | rfl <;> rfl

section lockdown
variable {s : State}

/-- A request accepted outside SUPERVISE is placed in the queue alone (R49, R140). -/
theorem sameRecords_acceptOrHold (hd : s.esc.device ≠ .supervise) (o : Offer) : SameRecords s (acceptOrHold o s) := by
  have hoff : ∀ p, SameRecords s (s.setOffered p) := fun _ => ⟨rfl, rfl, rfl, rfl⟩
  unfold acceptOrHold
  split
  · cases o with
    | write r =>
      rcases acceptWrite_inspects_or_sameRecords r (s.setOffered none) with ⟨-, hs, -⟩ | hsame
      · exact absurd hs hd
      · exact (hoff none).trans hsame
    | read r => exact (hoff none).trans (sameRecords_acceptRead r _)
  · exact hoff (some o)

theorem sameRecords_offer (hd : s.esc.device ≠ .supervise) (o : Offer) : SameRecords s (offer o s) := by
  unfold offer
  split
  · exact sameRecords_acceptOrHold hd o
  · rename_i held _
    split
    · exact sameRecords_acceptOrHold hd o
    · split
      · rename_i hc
        have hheld : SameRecords s (acceptOffer held s) := by
          have h := sameRecords_acceptOrHold hd held
          rwa [acceptOrHold, if_pos hc] at h
        exact hheld.trans (sameRecords_acceptOrHold (by rwa [hheld.esc]) o)
      · exact SameRecords.refl s

/-- A command that is not admitted in LOCKDOWN is refused there (R181, R182). -/
theorem sameRecords_refusedCommand (hd : s.esc.device = .lockdown) {code : Byte} (hc : code ∈ refusedInLockdown)
    (sel : Byte) (arg : Bytes8) (inRange : Byte → Bool) (run : Byte → State → State) :
    SameRecords s (takeCommand code (fun v _ => checked code v (inRange v) (run v)) sel arg s) :=
  sameRecords_takeCommand fun v _ _ ht => ht.checked fun ha => by
    rw [hd, not_admits_lockdown hc] at ha
    cases ha
theorem sameRecords_refusedIndexCommand (hd : s.esc.device = .lockdown) {code : Byte} (hc : code ∈ refusedInLockdown)
    (sel : Byte) (arg : Bytes8) (run : Index → State → State) :
    SameRecords s (takeCommand code (fun v _ => checkedIndex code v run) sel arg s) :=
  sameRecords_takeCommand fun v _ _ ht => ht.checkedIndex fun ha => by
    rw [hd, not_admits_lockdown hc] at ha
    cases ha

/-- FORCE_GROUP leaves groups that are TRIPPED (R161). -/
theorem sameRecords_forceGroup (hl : s.lockedDown) {t : State} (ht : SameRecords s t) (sel : Byte) :
    SameRecords s (forceGroup sel t) := by
  obtain ⟨-, hA, hB⟩ := hl
  have htripped : (t.group sel).state = .tripped := by
    unfold State.group
    rw [ht.esc]
    split
    · exact hA
    · exact hB
  unfold forceGroup
  rw [htripped]
  exact ht.reply _

/-- A collection clears latches alone (R172, R173). -/
theorem keepsTable_collectFrom {t : State} (ht : SameRecords s t) (code : Byte) (k : Index) :
    keepsTable s (collectFrom code k t) :=
  ⟨ht.esc, ht.entries, ht.windows⟩

end lockdown

/-- In LOCKDOWN every command but a reset and a collection leaves the records as they were (R135, R154). -/
theorem sameRecords_exec {s t : State} {i : Instr} (hl : s.lockedDown) (hsoft : ∀ sel arg, i ≠ .softReset sel arg)
    (hporst : i ≠ .powerOnReset) (hcollect : ∀ sel arg, i ≠ .collect sel arg ∧ i ≠ .collectEntry sel arg)
    (hx : exec i s = .next t) : SameRecords s t := by
  have hd : s.esc.device ≠ .supervise := by rw [hl.1]; decide
  have next : ∀ {u : State}, (.next u : Result) = .next t → SameRecords s u → SameRecords s t :=
    fun e hu => by cases e; exact hu
  cases i with
  | writeArrival ini tag addr lanes data => exact next hx (sameRecords_offer hd _)
  | readArrival ini tag addr => exact next hx (sameRecords_offer hd _)
  | slotIssue => exact next hx (sameRecords_onlyIf _ fun _ => sameRecords_issueOldest s)
  | memoryAccept => exact next hx (sameRecords_onlyIf _ fun _ => sameRecords_acceptAccess s)
  | memoryAnswer tag st d => exact next hx (sameRecords_onlyIf _ fun _ => sameRecords_takeAnswer tag st d s)
  | responseTaken => exact next hx (sameRecords_onlyIf _ fun _ => sameRecords_takeResponse s)
  | processorSideReset =>
    refine next hx (sameRecords_onlyIf _ fun _ => ?_)
    rw [rearmEntries_of_not_supervise (s := s.setPrst true) hd]
    exact ⟨rfl, rfl, rfl, rfl⟩
  | prstNRelease => exact next hx ⟨rfl, rfl, rfl, rfl⟩
  | powerOnReset => exact absurd rfl hporst
  | porstNRelease => exact next hx ⟨rfl, rfl, rfl, rfl⟩
  | tick n =>
    obtain ⟨hasserted, -, hstopped, -⟩ := tickLowersRunningWindows
    cases hp : s.pins.porst with
    | true => exact next ((hasserted s n hp).symm.trans hx) (SameRecords.refl s)
    | false => exact next ((hstopped s n hp hd).symm.trans hx) ⟨rfl, rfl, rfl, rfl⟩
  | armingExpiry k =>
    obtain ⟨ha, -, -, -⟩ := noneDue_of_not_supervise hd k
    exact next hx (sameRecords_onlyIf _ fun h => absurd h (by simp [ha]))
  | closedWindowEnd k =>
    obtain ⟨-, hc, -, -⟩ := noneDue_of_not_supervise hd k
    exact next hx (sameRecords_onlyIf _ fun h => absurd h (by simp [hc]))
  | openWindowExpiry k =>
    obtain ⟨-, -, ho, -⟩ := noneDue_of_not_supervise hd k
    exact next hx (sameRecords_onlyIf _ fun h => absurd h (by simp [ho]))
  | stalePeriodExpiry k =>
    obtain ⟨-, -, -, hs⟩ := noneDue_of_not_supervise hd k
    exact next hx (sameRecords_onlyIf _ fun h => absurd h (by simp [hs]))
  | frameStart => exact next hx (sameRecords_onlyIf _ fun _ => sameRecords_beginFrame s)
  | badFrame bits => exact next hx (sameRecords_takeBadFrame bits s)
  | badCommand c v a => exact next hx (takeFrame_of_sameRecords (fun _ => id) fun _ _ _ _ hu => hu.reply _)
  | nop v a => exact next hx (sameRecords_takeCommand fun _ _ _ hu => hu.reply _)
  | identify v a => exact next hx (sameRecords_takeCommand fun _ _ _ hu => hu.reply _)
  | deviceStatus v a => exact next hx (sameRecords_takeCommand fun _ _ _ hu => hu.checked fun _ => hu.reply _)
  | setArmingWindow v a => exact next hx (sameRecords_takeSetDevice fun _ _ => ⟨rfl, rfl, rfl, rfl⟩)
  | setPoisonWord v a => exact next hx (sameRecords_takeSetDevice fun _ _ => ⟨rfl, rfl, rfl, rfl⟩)
  | setAlertEnable v a => exact next hx (sameRecords_takeSetDevice fun _ _ => ⟨rfl, rfl, rfl, rfl⟩)
  | draftClear v a =>
    exact next hx (sameRecords_takeCommand fun _ _ _ hu => hu.checked fun _ => hu.trans ⟨rfl, rfl, rfl, rfl⟩)
  | draftSet v a =>
    exact next hx (sameRecords_takeCommand fun _ _ _ hu => hu.checked fun _ => hu.trans (sameRecords_changeDraft _ _ _))
  | draftOmit v a =>
    exact next hx (sameRecords_takeCommand fun _ _ _ hu => hu.checked fun _ => hu.trans (sameRecords_changeDraft _ _ _))
  | install v a => exact next hx (sameRecords_refusedIndexCommand hl.1 (by decide) v a _)
  | retire v a => exact next hx (sameRecords_refusedIndexCommand hl.1 (by decide) v a _)
  | rearm v a => exact next hx (sameRecords_refusedIndexCommand hl.1 (by decide) v a _)
  | readEntry v a =>
    exact next hx (sameRecords_takeCommand fun _ _ _ hu =>
      hu.checkedIndex fun _ _ => hu.trans (sameRecords_readEntry _ _ _))
  | start v a => exact next hx (sameRecords_refusedCommand hl.1 (by decide) v a _ _)
  | stop v a => exact next hx (sameRecords_refusedCommand hl.1 (by decide) v a _ _)
  | lockdown v a => exact next hx (sameRecords_refusedCommand hl.1 (by decide) v a _ _)
  | releaseGroup v a => exact next hx (sameRecords_refusedCommand hl.1 (by decide) v a _ _)
  | forceGroup v a =>
    exact next hx (sameRecords_takeCommand fun _ _ _ hu => hu.checked fun _ => sameRecords_forceGroup hl hu _)
  | collect v a => exact absurd rfl (hcollect v a).1
  | collectEntry v a => exact absurd rfl (hcollect v a).2
  | collectedPart v a => exact next hx (sameRecords_takeCommand fun _ _ _ hu => hu.checked fun _ => hu.reply _)
  | softReset v a => exact absurd rfl (hsoft v a)
  | sckRisingEdge b => exact next hx (sameRecords_clockIn b s)
  | sckFallingEdge => exact next hx (sameRecords_clockOut s)

/-- A collection keeps the table, in every device state (R172, R173). -/
theorem keepsTable_execCollect {s t : State} {sel : Byte} {arg : Bytes8} (hx : exec (.collect sel arg) s = .next t) :
    keepsTable s t := by
  cases hx
  refine takeCommand_of_sameRecords (fun _ => SameRecords.keepsTable) fun _ _ u hu =>
    checked_of_sameRecords (fun _ => SameRecords.keepsTable) hu fun _ => ?_
  unfold collectHead
  split
  · exact (hu.reply _).keepsTable
  · exact keepsTable_collectFrom hu _ _
theorem keepsTable_execCollectEntry {s t : State} {sel : Byte} {arg : Bytes8}
    (hx : exec (.collectEntry sel arg) s = .next t) : keepsTable s t := by
  cases hx
  refine takeCommand_of_sameRecords (fun _ => SameRecords.keepsTable) fun _ _ u hu =>
    checkedIndex_of_sameRecords (fun _ => SameRecords.keepsTable) hu fun _ k => ?_
  unfold collectNamed
  split
  · exact (hu.reply _).keepsTable
  · exact keepsTable_collectFrom hu _ _

/-- In LOCKDOWN every command but a reset keeps the table; only a collection writes a latch. -/
theorem exec_of_lockedDown {s t : State} {i : Instr} (hl : s.lockedDown) (hsoft : ∀ sel arg, i ≠ .softReset sel arg)
    (hporst : i ≠ .powerOnReset) (hx : exec i s = .next t) : keepsTable s t ∧
      ((∀ sel arg, i ≠ .collect sel arg ∧ i ≠ .collectEntry sel arg) → t.events = s.events) := by
  refine ⟨?_, fun hc => (sameRecords_exec hl hsoft hporst hc hx).events⟩
  by_cases h1 : ∃ sel arg, i = .collect sel arg
  · obtain ⟨sel, arg, rfl⟩ := h1
    exact keepsTable_execCollect hx
  · by_cases h2 : ∃ sel arg, i = .collectEntry sel arg
    · obtain ⟨sel, arg, rfl⟩ := h2
      exact keepsTable_execCollectEntry hx
    · exact (sameRecords_exec hl hsoft hporst
        (fun sel arg => ⟨fun e => h1 ⟨sel, arg, e⟩, fun e => h2 ⟨sel, arg, e⟩⟩) hx).keepsTable

/-- Settles O46: the command of a step runs at a state that is in LOCKDOWN as well, and with no command waiting a held
request is placed in the queue alone. -/
theorem lockdownStays : Obligations.LockdownStays := by
  refine ⟨fun s t i hl hsoft hporst hx => exec_of_lockedDown hl hsoft hporst hx, fun s t hl hp hx => ?idle,
    fun s t i rest hl hp hsoft hporst hx => ?waiting⟩
  case idle =>
    have hd : s.esc.device ≠ .supervise := by rw [hl.1]; decide
    have hsame : SameRecords s (acceptHeldOffer s) := by
      unfold acceptHeldOffer
      split
      · exact SameRecords.refl s
      · exact sameRecords_acceptOrHold hd _
    simp only [step, hp] at hx
    cases hx
    exact ⟨hsame.keepsTable, hsame.events⟩
  case waiting =>
    simp only [step, hp] at hx
    exact exec_of_lockedDown (s := { s with pending := rest }) hl hsoft hporst hx

end Sys2Proof.Machine

/-! PROOF. The poison patterns: the value of each by the format, and how a processor reads it (R143, R144). -/
namespace Sys2Proof.Machine

/-! ### The index in the six lowest bits (R143) -/

/-- The formats whose pattern is made of the poison word: all but the two real ones. -/
def Format.usesPoisonWord (f : Format) : Prop := f = .unsigned ∨ f = .signed ∨ f = .sequence ∨ f = .flags

theorem toNat_index (k : Index) : (BitVec.ofNat 32 k.val).toNat = k.val := by
  rw [BitVec.toNat_ofNat]
  omega

theorem getLsbD_index_of_ge (k : Index) {b : Nat} (hb : 6 ≤ b) : (BitVec.ofNat 32 k.val).getLsbD b = false := by
  have hk : k.val < 2 ^ b := k.isLt.trans_le (Nat.pow_le_pow_right (n := 2) (by decide) hb)
  rw [BitVec.getLsbD, toNat_index, Nat.testBit_lt_two_pow hk]

/-- The mask of R143 clears positions 5..0 and keeps the others. -/
theorem getLsbD_clearSix (poison : Word) (b : Nat) :
    (poison &&& 0xFFFFFFC0#32).getLsbD b = (!decide (b < 6) && poison.getLsbD b) := by
  have hmask : 0xFFFFFFC0#32 = BitVec.allOnes 32 <<< 6 := by decide
  rw [hmask, BitVec.getLsbD_and, BitVec.getLsbD_shiftLeft, BitVec.getLsbD_allOnes]
  by_cases hb : b < 32
  · have hlow : b - 6 < 32 := by omega
    rw [decide_eq_true hb, decide_eq_true hlow, Bool.true_and, Bool.and_true, Bool.and_comm]
  · rw [BitVec.getLsbD_of_ge poison b (by omega), Bool.false_and, Bool.and_false]

/-- The cleared poison word and the index have no bit in common. -/
theorem clearSix_and_index (poison : Word) (k : Index) :
    (poison &&& 0xFFFFFFC0#32) &&& BitVec.ofNat 32 k.val = 0#32 := by
  refine BitVec.eq_of_getLsbD_eq fun b _ => ?_
  rw [BitVec.getLsbD_and, getLsbD_clearSix, BitVec.getLsbD_zero]
  by_cases hb : b < 6
  · rw [decide_eq_true hb, Bool.not_true, Bool.false_and, Bool.false_and]
  · rw [getLsbD_index_of_ge k (by omega), Bool.and_false]

/-! ### The pattern of each format (R143, R144) -/

section pattern
variable {d : Definition} (k : Index) (poison : Word)

theorem poisonPattern_real32 (h : d.format = .real32) (a : Addr) :
    poisonPattern d k poison a = 0x7FC00000#32 + BitVec.ofNat 32 k.val := by rw [poisonPattern, h]

theorem poisonPattern_real64 (h : d.format = .real64) (a : Addr) : poisonPattern d k poison a =
    if a = d.base then BitVec.ofNat 32 k.val else 0x7FF80000#32 := by
  rw [poisonPattern, h]
  by_cases ha : a = d.base <;> simp [Definition.halfOf, ha]

theorem poisonPattern_of_poisonWord (h : d.format.usesPoisonWord) (a : Addr) : poisonPattern d k poison a =
    (poison &&& 0xFFFFFFC0#32) ||| BitVec.ofNat 32 k.val := by
  rcases h with h | h | h | h <;> rw [poisonPattern, h]

/-- Nothing is carried where the index is put in: to replace the six bits is to clear them and add it. -/
theorem poisonPattern_eq_add (h : d.format.usesPoisonWord) (a : Addr) : poisonPattern d k poison a =
    (poison &&& 0xFFFFFFC0#32) + BitVec.ofNat 32 k.val := by
  rw [poisonPattern_of_poisonWord k poison h, BitVec.add_eq_or_of_and_eq_zero _ _ (clearSix_and_index poison k)]

theorem getLsbD_poisonPattern (h : d.format.usesPoisonWord) (a : Addr) (b : Nat) :
    (poisonPattern d k poison a).getLsbD b =
      if b < 6 then (BitVec.ofNat 32 k.val).getLsbD b else poison.getLsbD b := by
  rw [poisonPattern_of_poisonWord k poison h, BitVec.getLsbD_or, getLsbD_clearSix]
  by_cases hb : b < 6
  · rw [if_pos hb, decide_eq_true hb, Bool.not_true, Bool.false_and, Bool.false_or]
  · rw [if_neg hb, decide_eq_false hb, getLsbD_index_of_ge k (by omega), Bool.not_false, Bool.true_and, Bool.or_false]

/-! ### How a pattern reads (R76 to R78, R143) -/

/-- With the default poison word the unsigned reading of the pattern. -/
theorem toNat_poisonPattern_default (h : d.format.usesPoisonWord) (a : Addr) :
    (poisonPattern d k 0xFFFFFFC0#32 a).toNat = 4294967232 + k.val := by
  rw [poisonPattern_eq_add k _ h, BitVec.and_self, BitVec.toNat_add, toNat_index, BitVec.toNat_ofNat]
  omega

/-- Its sign bit is 1, so that the signed reading lies 2^32 below. -/
theorem toInt_poisonPattern_default (h : d.format.usesPoisonWord) (a : Addr) :
    (poisonPattern d k 0xFFFFFFC0#32 a).toInt = -64 + k.val := by
  rw [BitVec.toInt_eq_toNat_cond, toNat_poisonPattern_default k h]
  omega

end pattern

theorem toNat_nanPattern (k : Index) : (0x7FC00000#32 + BitVec.ofNat 32 k.val).toNat = 0x7FC00000 + k.val := by
  rw [BitVec.toNat_add, toNat_index, BitVec.toNat_ofNat]
  omega

/-- The pattern of REAL32 is a NaN: the exponent field is 255, and the fraction, 2^22 plus the index, is not 0. -/
theorem class32_nanPattern (k : Index) : class32 (0x7FC00000#32 + BitVec.ofNat 32 k.val) = .nan := by
  obtain ⟨-, -, -, -, hnan⟩ := classOf_iff (eMax := 255) (by decide)
    (exponent32 (0x7FC00000#32 + BitVec.ofNat 32 k.val)) (fraction32 (0x7FC00000#32 + BitVec.ofNat 32 k.val))
  refine hnan.mpr ⟨?exponent, ?fraction⟩
  case exponent => rw [exponent32_eq, toNat_nanPattern]; omega
  case fraction => rw [fraction32_eq, toNat_nanPattern]; omega

/-- The NaN is quiet: the most significant fraction bit is 1. -/
theorem getLsbD_nanPattern_quiet (k : Index) : (0x7FC00000#32 + BitVec.ofNat 32 k.val).getLsbD 22 = true := by
  rw [BitVec.getLsbD, toNat_nanPattern, Nat.testBit_eq_decide_div_mod_eq]
  exact decide_eq_true (by omega)

theorem msb_nanPattern (k : Index) : (0x7FC00000#32 + BitVec.ofNat 32 k.val).msb = false := by
  rw [BitVec.msb_eq_decide, toNat_nanPattern]
  exact decide_eq_false (by omega)

/-- Settles O21: the value of each pattern by its format, with its bits and its readings. -/
theorem poisonPatterns : Obligations.PoisonPatterns := by
  intro d k poison a
  refine ⟨fun h => ?real32, fun h ha => ?low, fun h ha => ?high,
    fun h => ⟨poisonPattern_eq_add k poison h a, getLsbD_poisonPattern k poison h a⟩, fun h hp => ?default⟩
  case real32 =>
    rw [poisonPattern_real32 k poison h]
    exact ⟨rfl, class32_nanPattern k, getLsbD_nanPattern_quiet k, msb_nanPattern k⟩
  case low => rw [poisonPattern_real64 k poison h, if_pos ha]
  case high =>
    have hne : a ≠ d.base := by
      rw [ha]
      exact fun he => absurd (BitVec.self_eq_add_right.mp he.symm) (by decide)
    rw [poisonPattern_real64 k poison h, if_neg hne]
  case default =>
    rw [hp]
    exact ⟨toNat_poisonPattern_default k h a, toInt_poisonPattern_default k h a⟩

end Sys2Proof.Machine

/-! PROOF. Escalation: the device state with its reason, the fail groups, and the output lines (R148 to R162, R171). -/
namespace Sys2Proof.Machine

/-! ### The changes that the Escalation Unit and the states of the entries go through -/

/-- The entry states that a device state admits (chapter 1, 1.4). -/
def DeviceState.allows : DeviceState → EntryState → Prop
  | .configure, st => st = .empty ∨ st = .defined
  | .supervise, st => st ≠ .defined
  | .lockdown, _ => True

theorem DeviceState.allows_empty (d : DeviceState) : d.allows .empty := by
  cases d with
  | configure => exact .inl rfl
  | supervise => exact EntryState.noConfusion
  | lockdown => trivial

/-- A change of one entry that is no matter of the Escalation Unit: its state and static part stay, or it goes from a
state that is not FAILED to another one that the device state admits. -/
def Entry.movesTo (d : DeviceState) (e x : Entry) : Prop :=
  (x.state = e.state ∧ x.defn = e.defn) ∨ (e.state ≠ .failed ∧ x.state ≠ .failed ∧ d.allows x.state)

theorem Entry.movesTo_refl (d : DeviceState) (e : Entry) : e.movesTo d e := .inl ⟨rfl, rfl⟩

/-- The Escalation Unit's record after a failure of entry `k`: the groups by the reaction, and with reaction LOCKDOWN the
device state and the reason (R152, R155). -/
def Escalation.afterFailure (x : Escalation) (k : Index) (r : Reaction) : Escalation :=
  { applyReaction k r x with
    device := if r = .lockdown then .lockdown else x.device
    reason := if r = .lockdown then .entry k else x.reason }

theorem esc_takeFailure (k : Index) (s : State) :
    (takeFailure k s).esc = s.esc.afterFailure k (s.entry k).defn.reaction := by
  by_cases h : (s.entry k).defn.reaction = .lockdown
  · rw [esc_takeFailure_of_lockdown h, h]; rfl
  · rw [esc_takeFailure_of_ne h, Escalation.afterFailure, if_neg h, if_neg h]; rfl

/-- Entry `k` has become FAILED in SUPERVISE, and the Escalation Unit has taken its failure; the other entries are in the
states in which they were. -/
structure FailureOf (k : Index) (s t : State) : Prop where
  device : s.esc.device = .supervise
  failed : (t.entry k).state = .failed
  defn : ∀ j, (t.entry j).defn = (s.entry j).defn
  others : ∀ j, j ≠ k → (t.entry j).state = (s.entry j).state
  esc : t.esc = s.esc.afterFailure k (s.entry k).defn.reaction

/-- Entry `k` is written anew and the others stay, but for pending halves that may be discarded. -/
def writesEntry (k : Index) (e : Entry) (s t : State) : Prop :=
  ∀ j, t.entry j = (if k = j then e else s.entry j) ∨ t.entry j = (if k = j then e else s.entry j).discardPending

/-- A pending half is neither of the state nor of the static part. -/
theorem writesEntry.state_and_defn {k : Index} {e : Entry} {s t : State} (h : writesEntry k e s t) (j : Index) :
    (t.entry j).state = (if k = j then e else s.entry j).state ∧
      (t.entry j).defn = (if k = j then e else s.entry j).defn := by
  rcases h j with hj | hj <;> rw [hj] <;> exact ⟨rfl, rfl⟩

theorem writesEntry.moves {k : Index} {e : Entry} {s t : State} (h : writesEntry k e s t) {d : DeviceState}
    (he : (s.entry k).movesTo d e) (j : Index) : (s.entry j).movesTo d (t.entry j) := by
  obtain ⟨hs, hd⟩ := h.state_and_defn j
  unfold Entry.movesTo
  rw [hs, hd]
  by_cases hj : k = j
  · rw [if_pos hj, ← hj]; exact he
  · rw [if_neg hj]; exact Entry.movesTo_refl d _

theorem writesEntry.failureOf {k : Index} {e : Entry} {s t : State} (h : writesEntry k e s t)
    (hdev : s.esc.device = .supervise) (hs : e.state = .failed) (hd : e.defn = (s.entry k).defn)
    (hesc : t.esc = s.esc.afterFailure k (s.entry k).defn.reaction) : FailureOf k s t where
  device := hdev
  failed := by rw [(h.state_and_defn k).1, if_pos rfl, hs]
  defn j := by
    rw [(h.state_and_defn j).2]
    split
    · rename_i hj; rw [hd, hj]
    · rfl
  others j hj := by rw [(h.state_and_defn j).1, if_neg (Ne.symm hj)]
  esc := hesc

/-! ### A failure, or a move of one entry: expiries and inspected writes -/

/-- An expiry fails its entry or moves it to STALE (R132). -/
theorem lateExpiry_cases {s : State} {k : Index} (hd : s.esc.device = .supervise)
    (hs : (s.entry k).state ≠ .failed) : FailureOf k s (lateExpiry k s) ∨
      ((lateExpiry k s).esc = s.esc ∧ ∀ j, (s.entry j).movesTo s.esc.device ((lateExpiry k s).entry j)) := by
  have hwrites : writesEntry k (s.entry k).late s (lateExpiry k s) := entry_lateExpiry k s
  by_cases ht : (s.entry k).faultCounter + 1 = (s.entry k).defn.threshold
  · refine .inl (hwrites.failureOf hd (by rw [Entry.late_of_eq ht]) rfl ?_)
    rw [lateExpiry_of_eq ht, esc_takeFailure]
    simp [Entry.late]
  · refine .inr ⟨by rw [lateExpiry_of_ne ht]; simp, hwrites.moves (.inr ⟨hs, ?_⟩)⟩
    rw [Entry.late_of_ne ht, hd]
    exact ⟨EntryState.noConfusion, EntryState.noConfusion⟩

/-- The static part that an inspection leaves, and the state when the write does not fail its entry: as it was, or LIVE
(R53, R64, R65). -/
theorem inspect_next (e : Entry) (r : WriteRequest) : (inspect e r).next.defn = e.defn ∧
    ((inspect e r).fails = false →
      (inspect e r).next.state = e.state ∨ (e.state ≠ .failed ∧ (inspect e r).next.state = .live)) := by
  rcases inspect_cases e r with ⟨-, hi⟩ | ⟨-, p, -, hi⟩ | ⟨hs, -, hi⟩
  · rw [hi]; exact ⟨rfl, fun _ => .inl rfl⟩
  · rw [hi]; exact ⟨rfl, fun _ => .inl rfl⟩
  · rcases judge_cases e r (pairingStage e r) with ⟨-, hj⟩ | ⟨-, -, hj⟩ | ⟨-, -, hj⟩ <;> rw [hi, hj]
    · refine ⟨rfl, fun hf => .inl ?_⟩
      simp only [faultedWrite] at hf ⊢
      rw [hf]
      rfl
    · exact ⟨rfl, fun _ => .inl rfl⟩
    · exact ⟨rfl, fun _ => .inr ⟨hs, rfl⟩⟩

/-- An inspected write fails its entry, or moves it at most to LIVE. -/
theorem applyInspection_cases {s : State} (hd : s.esc.device = .supervise) (k : Index) (r : WriteRequest) :
    let t := applyInspection k r (inspect (s.entry k) r) s
    FailureOf k s t ∨ (t.esc = s.esc ∧ ∀ j, (s.entry j).movesTo s.esc.device (t.entry j)) := by
  intro t
  have hwrites : writesEntry k (entryAfterWrite (s.entry k) r) s t := entry_applyInspection k r s
  obtain ⟨hdefn, hkept⟩ := inspect_next (s.entry k) r
  obtain ⟨ph, hph⟩ := entryAfterWrite_eq_next (s.entry k) r
  cases hf : (inspect (s.entry k) r).fails with
  | true =>
    refine .inl (hwrites.failureOf hd (by rw [hph]; exact failed_of_fails hf) (by rw [hph]; exact hdefn) ?_)
    show (applyInspection k r (inspect (s.entry k) r) s).esc = _
    rw [applyInspection_of_fails hf, esc_takeFailure, entry_latchEvents, entry_placeSlot, defn_applyTiming, hdefn]
    simp
  | false =>
    refine .inr ⟨?_, hwrites.moves ?_⟩
    · show (applyInspection k r (inspect (s.entry k) r) s).esc = _
      rw [applyInspection_of_not_fails hf]
      simp
    · rw [hph]
      rcases hkept hf with hs | ⟨hs, hlive⟩
      · exact .inl ⟨hs, hdefn⟩
      · refine .inr ⟨hs, ?_⟩
        rw [hlive, hd]
        exact ⟨EntryState.noConfusion, EntryState.noConfusion⟩

/-! ### What keeps a law of escalation -/

/-- The changes of escalation keep `P`: of the entry states with the Escalation Unit as it was, a failure, and the
commands that write the Escalation Unit. -/
structure KeepsEscalation (P : State → Prop) : Prop where
  moved : ∀ s t, t.esc = s.esc → (∀ k, (s.entry k).movesTo s.esc.device (t.entry k)) → P s → P t
  failure : ∀ s t k, FailureOf k s t → P s → P t
  rearm : ∀ s k, s.esc.device = .supervise → (s.entry k).state = .failed → P s → P (rearmEntry k s)
  start : ∀ s, s.esc.device = .configure → P s → P (startSupervision s)
  stop : ∀ s, s.esc.device = .supervise → (∀ k, (s.entry k).state ≠ .failed) → P s → P (stopSupervision s)
  lockdown : ∀ s, s.esc.device ≠ .lockdown → P s → P (enterLockdown .monitor s)
  group : ∀ s sel g, (s.group sel).state ≠ .tripped → g ≠ .tripped → P s → P (s.setGroupState sel g)
  reset : ∀ t : State, t.esc = resetEscalation → (∀ k, t.entry k = emptyEntry) → P t

/-- A processor-side reset moves entries to ARMED, in SUPERVISE alone (R24). -/
theorem movesTo_rearmEntries (s : State) (k : Index) : (s.entry k).movesTo s.esc.device ((rearmEntries s).entry k) := by
  rw [entry_rearmEntries]
  split
  · rename_i hd
    unfold Entry.afterProcessorReset
    split
    · rename_i hr
      refine .inr ⟨fun hs => ?_, EntryState.noConfusion, ?_⟩
      · rw [hs] at hr; cases hr
      · rw [hd]; exact EntryState.noConfusion
    · exact Entry.movesTo_refl _ _
  · exact Entry.movesTo_refl _ _

/-- An installed entry is ARMED in SUPERVISE and DEFINED in CONFIGURE (R16). -/
theorem movesTo_freshEntry {d : DeviceState} (hd : d ≠ .lockdown) {e : Entry} (he : e.state = .empty)
    (x : Definition) : e.movesTo d (freshEntry x (if d = .supervise then .armed else .defined)) := by
  refine .inr ⟨by simp [he], ?_⟩
  cases d with
  | configure => exact ⟨EntryState.noConfusion, .inr rfl⟩
  | supervise => exact ⟨EntryState.noConfusion, EntryState.noConfusion⟩
  | lockdown => exact absurd rfl hd

theorem KeepsEscalation.of_same {P : State → Prop} (h : KeepsEscalation P) {s t : State} (hs : SameRecords s t)
    (hp : P s) : P t :=
  h.moved s t hs.esc (fun k => by rw [entry_congr hs.entries k]; exact Entry.movesTo_refl _ _) hp

theorem KeepsEscalation.write {P : State → Prop} (h : KeepsEscalation P) {s : State} (r : WriteRequest) (hp : P s) :
    P (acceptWrite r s) := by
  rcases acceptWrite_inspects_or_sameRecords r s with ⟨k, hd, hi⟩ | hsame
  · rw [hi]
    rcases applyInspection_cases hd k r with hf | ⟨hesc, hm⟩
    · exact h.failure s _ k hf hp
    · exact h.moved s _ hesc hm hp
  · exact h.of_same hsame hp

/-- The entry of an expiry that is due is ARMED, LIVE or STALE (R124, R129, R130). -/
theorem not_failed_of_late_due {s : State} {k : Index} (h : (s.armingDue k || s.openDue k || s.staleDue k) = true) :
    (s.entry k).state ≠ .failed := by
  simp only [State.armingDue, State.openDue, State.staleDue, Bool.or_eq_true, Bool.and_eq_true, beq_iff_eq] at h
  rcases h with (⟨-, hs⟩ | ⟨-, hs⟩) | ⟨-, hs⟩ <;> rw [hs] <;> exact EntryState.noConfusion

theorem KeepsEscalation.late {P : State → Prop} (h : KeepsEscalation P) {s : State} {k : Index}
    (hd : (s.armingDue k || s.openDue k || s.staleDue k) = true) (hp : P s) : P (lateExpiry k s) := by
  rcases lateExpiry_cases (of_late_due hd).1 (not_failed_of_late_due hd) with hf | ⟨hesc, hm⟩
  · exact h.failure s _ k hf hp
  · exact h.moved s _ hesc hm hp

/-- REARM of an entry that is not FAILED is no matter of the groups (R19, R159). -/
theorem esc_rearmEntry (k : Index) (s : State) : (rearmEntry k s).esc =
    if (s.entry k).state = .failed then applyRearm k (s.entry k).defn.reaction s.esc else s.esc := by
  unfold rearmEntry
  dsimp only
  by_cases hs : (s.entry k).state = .failed
  · rw [if_pos (by simpa using hs), if_pos hs]; rfl
  · rw [if_neg (by simpa using hs), if_neg hs]; rfl

theorem KeepsEscalation.keeps {P : State → Prop} (h : KeepsEscalation P) : Keeps P where
  link _ _ _ _ := h.of_same ⟨rfl, rfl, rfl, rfl⟩
  free _ _ := h.of_same ⟨rfl, rfl, rfl, rfl⟩
  offered _ _ := h.of_same ⟨rfl, rfl, rfl, rfl⟩
  write _ r _ := h.write r
  read s r _ := h.of_same (sameRecords_acceptRead r s)
  issue s _ := h.of_same (sameRecords_issueOldest s)
  accept s := h.of_same (sameRecords_acceptAccess s)
  answer s tag st d := h.of_same (sameRecords_takeAnswer tag st d s)
  response s := h.of_same (sameRecords_takeResponse s)
  prst _ _ := h.of_same ⟨rfl, rfl, rfl, rfl⟩
  porst _ := h.of_same ⟨rfl, rfl, rfl, rfl⟩
  processorReset s _ := h.moved s _ (by simp) fun k => by rw [entry_drain]; exact movesTo_rearmEntries s k
  powerOn s _ := h.reset _ rfl (by simp)
  divider _ _ := h.of_same ⟨rfl, rfl, rfl, rfl⟩
  lower s _ _ := h.moved s _ (by simp) fun k => by rw [entry_mapWindows]; exact Entry.movesTo_refl _ _
  openPhase s k _ := h.moved s _ rfl
    (writesEntry.moves (fun j => .inl (entry_setEntry s k j _)) (.inl ⟨rfl, rfl⟩))
  late _ _ hd := h.late hd
  arming _ _ := h.of_same ⟨rfl, rfl, rfl, rfl⟩
  poison _ _ _ := h.of_same ⟨rfl, rfl, rfl, rfl⟩
  alert _ _ := h.of_same ⟨rfl, rfl, rfl, rfl⟩
  draft _ _ _ := h.of_same ⟨rfl, rfl, rfl, rfl⟩
  install s k hd he _ _ := h.moved s _ (by unfold installDraft; split <;> rfl)
    (writesEntry.moves (fun j => .inl (entry_installDraft k s j)) (movesTo_freshEntry hd he _))
  retire s k _ _ hs := h.moved s _ rfl (writesEntry.moves (fun j => .inl (entry_retireEntry k s j))
    (.inr ⟨hs, EntryState.noConfusion, s.esc.device.allows_empty⟩))
  rearm s k hd _ _ hp := by
    by_cases hs : (s.entry k).state = .failed
    · exact h.rearm s k hd hs hp
    · refine h.moved s _ (by rw [esc_rearmEntry, if_neg hs])
        (writesEntry.moves (fun j => .inl (entry_rearmEntry k s j)) (.inr ⟨hs, EntryState.noConfusion, ?_⟩)) hp
      rw [hd]; exact EntryState.noConfusion
  start := h.start
  stop := h.stop
  lockdown := h.lockdown
  release s sel _ hs := h.group s sel .clear (by rw [hs]; decide) (by decide)
  force s sel hs := h.group s sel .latched (by rw [hs]; decide) (by decide)
  collect s k _ hp := h.moved s _ rfl (fun _ => Entry.movesTo_refl _ _) hp
  softReset s _ := h.reset _ rfl (entry_softResetAll s)

/-! ### The device state and the lockdown reason (R148, R152) -/

/-- What `DeviceLaw` says of the reason. -/
def State.reasonFits (s : State) : Prop :=
  (s.esc.reason = .none ↔ s.esc.device ≠ .lockdown) ∧
  ∀ k, s.esc.reason = .entry k → (s.entry k).state = .failed ∧ (s.entry k).defn.reaction = .lockdown

/-- The law is one of each entry's state, and one of the reason. -/
theorem deviceLaw_iff (s : State) :
    DeviceLaw s ↔ (∀ k, s.esc.device.allows (s.entry k).state) ∧ s.reasonFits := by
  unfold DeviceLaw State.reasonFits
  cases s.esc.device <;> simp [DeviceState.allows]

/-- Outside LOCKDOWN the reason is NONE, and names no entry. -/
theorem State.reasonFits_of_none {s : State} (hd : s.esc.device ≠ .lockdown) (hr : s.esc.reason = .none) :
    s.reasonFits :=
  ⟨iff_of_true hr hd, fun k hk => by rw [hr] at hk; cases hk⟩

theorem DeviceLaw.reason_eq_none {s : State} (h : DeviceLaw s) (hd : s.esc.device ≠ .lockdown) :
    s.esc.reason = .none := by
  obtain ⟨-, -, hreason, -⟩ := h
  exact hreason.mpr hd

/-- Moves of entries keep the law: none of them is from or to FAILED. -/
theorem DeviceLaw.of_moved {s t : State} (h : DeviceLaw s) (hd : t.esc.device = s.esc.device)
    (hr : t.esc.reason = s.esc.reason) (hm : ∀ k, (s.entry k).movesTo s.esc.device (t.entry k)) : DeviceLaw t := by
  obtain ⟨hallows, hnone, hentry⟩ := (deviceLaw_iff s).mp h
  refine (deviceLaw_iff t).mpr ⟨fun k => ?_, by rw [hd, hr]; exact hnone, fun k hk => ?_⟩
  · rw [hd]
    rcases hm k with ⟨hs, -⟩ | ⟨-, -, ha⟩
    · rw [hs]; exact hallows k
    · exact ha
  · obtain ⟨hfailed, hreaction⟩ := hentry k (hr ▸ hk)
    rcases hm k with ⟨hs, hdefn⟩ | ⟨hs, -⟩
    · rw [hs, hdefn]; exact ⟨hfailed, hreaction⟩
    · exact absurd hfailed hs

/-- A failure leaves the device in SUPERVISE, or brings LOCKDOWN with its entry as the reason (R152). -/
theorem DeviceLaw.of_failure {s t : State} {k : Index} (h : DeviceLaw s) (hf : FailureOf k s t) : DeviceLaw t := by
  obtain ⟨hallows, -⟩ := (deviceLaw_iff s).mp h
  have hdevice : t.esc.device = if (s.entry k).defn.reaction = .lockdown then .lockdown else s.esc.device := by
    rw [hf.esc]; rfl
  have hreason : t.esc.reason = if (s.entry k).defn.reaction = .lockdown then .entry k else s.esc.reason := by
    rw [hf.esc]; rfl
  refine (deviceLaw_iff t).mpr ?_
  by_cases hr : (s.entry k).defn.reaction = .lockdown
  · rw [if_pos hr] at hdevice hreason
    refine ⟨fun j => by rw [hdevice]; trivial, by simp [hdevice, hreason], fun j hj => ?_⟩
    rw [hreason] at hj
    cases hj
    exact ⟨hf.failed, by rw [hf.defn, hr]⟩
  · have hsup : s.esc.device ≠ .lockdown := by rw [hf.device]; decide
    rw [if_neg hr] at hdevice hreason
    refine ⟨fun j => ?_, State.reasonFits_of_none (by rwa [hdevice]) (hreason.trans (h.reason_eq_none hsup))⟩
    by_cases hj : j = k
    · rw [hj, hf.failed, hdevice, hf.device]; exact EntryState.noConfusion
    · rw [hf.others j hj, hdevice]; exact hallows j

/-- START arms every DEFINED entry (R17). -/
theorem Entry.started_state_ne_defined (e : Entry) : e.started.state ≠ .defined := by
  unfold Entry.started
  split
  · exact EntryState.noConfusion
  · rename_i hs
    exact fun hd => hs (by rw [hd]; rfl)

/-- STOP leaves every entry EMPTY or DEFINED, when none is FAILED (R18). -/
theorem Entry.allows_stopped {e : Entry} (h : DeviceState.supervise.allows e.state) (hf : e.state ≠ .failed) :
    DeviceState.configure.allows e.stopped.state := by
  unfold Entry.stopped
  split
  · exact .inr rfl
  · rename_i hs
    rw [stops_iff] at hs
    cases hst : e.state with
    | empty => exact .inl rfl
    | defined => exact absurd hst h
    | failed => exact absurd hst hf
    | armed | live | stale => simp [hst] at hs

theorem keepsEscalation_deviceLaw : KeepsEscalation DeviceLaw where
  moved _ _ hesc hm h := h.of_moved (by rw [hesc]) (by rw [hesc]) hm
  failure _ _ _ hf h := h.of_failure hf
  rearm s k hd _ h := by
    obtain ⟨hallows, -⟩ := (deviceLaw_iff s).mp h
    have hn : s.esc.device ≠ .lockdown := by rw [hd]; decide
    refine (deviceLaw_iff _).mpr ⟨fun j => ?_, State.reasonFits_of_none (by simpa using hn) ?_⟩
    · rw [device_rearmEntry, entry_rearmEntry]
      split
      · rw [hd]; exact EntryState.noConfusion
      · exact hallows j
    · refine Eq.trans ?_ (h.reason_eq_none hn)
      rw [esc_rearmEntry]
      split <;> rfl
  start s hd h := by
    refine (deviceLaw_iff _).mpr ⟨fun k => ?_, State.reasonFits_of_none (by simp) ?_⟩
    · rw [esc_startSupervision, entry_startSupervision]; exact (s.entry k).started_state_ne_defined
    · rw [esc_startSupervision]; exact h.reason_eq_none (by rw [hd]; decide)
  stop s hd hf h := by
    obtain ⟨hallows, -⟩ := (deviceLaw_iff s).mp h
    rw [hd] at hallows
    refine (deviceLaw_iff _).mpr ⟨fun k => ?_, State.reasonFits_of_none (by simp) ?_⟩
    · rw [esc_stopSupervision, entry_stopSupervision]; exact Entry.allows_stopped (hallows k) (hf k)
    · rw [esc_stopSupervision]; exact h.reason_eq_none (by rw [hd]; decide)
  lockdown s _ _ := by
    refine (deviceLaw_iff _).mpr ⟨fun k => ?_, ?_, fun k hk => ?_⟩
    · rw [esc_enterLockdown]; trivial
    · simp [Escalation.locked]
    · rw [esc_enterLockdown] at hk; cases hk
  group s sel g _ _ h := by
    refine h.of_moved (device_setGroupState s sel g) ?_ fun k => ?_
    · unfold State.setGroupState; split <;> rfl
    · rw [entry_setGroupState]; exact Entry.movesTo_refl _ _
  reset t hesc he := by
    refine (deviceLaw_iff t).mpr ⟨fun k => ?_, State.reasonFits_of_none ?_ ?_⟩
    · rw [he k]; exact t.esc.device.allows_empty
    · rw [hesc]; exact DeviceState.noConfusion
    · rw [hesc]; rfl

/-! ### The fail groups (R157 to R159) -/

/-- The entry is FAILED, and a member of the group whose reactions `member` gives (R157). -/
def Entry.failedIn (e : Entry) (member : Reaction → Bool) : Bool := e.state == .failed && member e.defn.reaction

/-- What `GroupLaw` says of one group. -/
def State.groupFits (s : State) (member : Reaction → Bool) (g : Group) : Prop :=
  (∀ k : Index, g.failed[k] = (s.entry k).failedIn member) ∧
  (g.state = .tripped ↔ s.esc.device = .lockdown ∨ ∃ k : Index, g.failed[k] = true)

theorem groupLaw_iff (s : State) : GroupLaw s ↔
    s.groupFits Reaction.inGroupA s.esc.groupA ∧ s.groupFits Reaction.inGroupB s.esc.groupB :=
  ⟨fun ⟨hA, hB, htA, htB⟩ => ⟨⟨hA, htA⟩, hB, htB⟩, fun ⟨⟨hA, htA⟩, hB, htB⟩ => ⟨hA, hB, htA, htB⟩⟩

theorem Entry.failedIn_of_ne {e : Entry} (h : e.state ≠ .failed) (member : Reaction → Bool) :
    e.failedIn member = false := by simp [Entry.failedIn, h]

theorem Entry.failedIn_congr {e x : Entry} (hs : x.state = e.state) (hd : x.defn = e.defn)
    (member : Reaction → Bool) : x.failedIn member = e.failedIn member := by rw [Entry.failedIn, hs, hd]; rfl

theorem Entry.movesTo.failedIn {d : DeviceState} {e x : Entry} (h : e.movesTo d x) (member : Reaction → Bool) :
    x.failedIn member = e.failedIn member := by
  rcases h with ⟨hs, hd⟩ | ⟨he, hx, -⟩
  · exact Entry.failedIn_congr hs hd member
  · rw [Entry.failedIn_of_ne he, Entry.failedIn_of_ne hx]

/-- The failed-member set after a failure of entry `k`, and after its REARM (R158, R159). -/
theorem failed_memberFailed (g : Group) (k j : Index) :
    (g.memberFailed k).failed[j] = if k = j then true else g.failed[j] := getElem_set_index g.failed k j true
theorem failed_memberRearmed (g : Group) (k j : Index) :
    (g.memberRearmed k).failed[j] = if k = j then false else g.failed[j] := getElem_set_index g.failed k j false

theorem failed_memberRearmed_iff (g : Group) (k j : Index) :
    (g.memberRearmed k).failed[j] = true ↔ j ≠ k ∧ g.failed[j] = true := by
  rw [failed_memberRearmed]
  split
  · rename_i hj; exact iff_of_false Bool.false_ne_true fun hc => hc.1 hj.symm
  · rename_i hj; exact (and_iff_right (Ne.symm hj)).symm

/-- A group that is TRIPPED while a member is failed stays so exactly while another one is left (R159). -/
theorem tripped_memberRearmed_iff {g : Group} (k : Index) (h : ∀ j : Index, g.failed[j] = true → g.state = .tripped) :
    (g.memberRearmed k).state = .tripped ↔ ∃ j : Index, j ≠ k ∧ g.failed[j] = true := by
  rw [memberRearmed_eq]
  dsimp only
  by_cases hleft : ∃ j : Index, j ≠ k ∧ g.failed[j] = true
  · obtain ⟨j, hne, hj⟩ := hleft
    rw [if_neg fun hc => by rw [hc.2 j hne] at hj; cases hj]
    exact iff_of_true (h j hj) ⟨j, hne, hj⟩
  · have hnone : ∀ j : Index, j ≠ k → g.failed[j] = false := by simpa using hleft
    refine iff_of_false (fun hs => ?_) hleft
    split at hs
    · cases hs
    · rename_i hkept; exact hkept ⟨hs, hnone⟩

section groups
variable {s t : State} {member : Reaction → Bool} {g : Group} {k : Index}

/-- A group stays as it was while no member fails or is rearmed, and LOCKDOWN neither comes nor goes. -/
theorem State.groupFits.of_kept (h : s.groupFits member g)
    (hf : ∀ k, (t.entry k).failedIn member = (s.entry k).failedIn member)
    (hd : t.esc.device = .lockdown ↔ s.esc.device = .lockdown) : t.groupFits member g := by
  obtain ⟨hset, hstate⟩ := h
  exact ⟨fun k => by rw [hf k]; exact hset k, by rw [hd]; exact hstate⟩

/-- A group that is not TRIPPED may move between CLEAR and LATCHED (R160, R161). -/
theorem State.groupFits.of_state (h : s.groupFits member g) (hg : g.state ≠ .tripped) {x : GroupState}
    (hx : x ≠ .tripped) : s.groupFits member ⟨x, g.failed⟩ := by
  obtain ⟨hset, hstate⟩ := h
  exact ⟨hset, iff_of_false hx fun hc => hg (hstate.mpr hc)⟩

/-- The failure of a member puts it in the set and trips the group; that of another entry leaves the group (R155, R158).
An entry with reaction LOCKDOWN is a member of both groups. -/
theorem State.groupFits.of_failure (h : s.groupFits member g) (hl : member .lockdown = true) (hf : FailureOf k s t) :
    t.groupFits member (if member (s.entry k).defn.reaction then g.memberFailed k else g) := by
  obtain ⟨hset, hstate⟩ := h
  have hothers : ∀ j, j ≠ k → (t.entry j).failedIn member = (s.entry j).failedIn member := fun j hj =>
    Entry.failedIn_congr (hf.others j hj) (hf.defn j) member
  have hself : (t.entry k).failedIn member = member (s.entry k).defn.reaction := by
    simp [Entry.failedIn, hf.failed, hf.defn]
  by_cases hm : member (s.entry k).defn.reaction = true
  · rw [if_pos hm]
    refine ⟨fun j => ?_, iff_of_true rfl (.inr ⟨k, by rw [failed_memberFailed, if_pos rfl]⟩)⟩
    rw [failed_memberFailed]
    split
    · rename_i hj; rw [← hj, hself, hm]
    · rename_i hj; rw [hothers j (Ne.symm hj), hset j]
  · rw [if_neg hm]
    rw [Bool.not_eq_true] at hm
    have hr : (s.entry k).defn.reaction ≠ .lockdown := fun hr => by rw [hr, hl] at hm; cases hm
    refine State.groupFits.of_kept ⟨hset, hstate⟩ (fun j => ?_) ?_
    · by_cases hj : j = k
      · rw [hj, hself, Entry.failedIn, hm, Bool.and_false]
      · exact hothers j hj
    · rw [hf.esc, Escalation.afterFailure, if_neg hr]

/-- REARM of a member takes it out of the set, and a group with none left is LATCHED (R159). -/
theorem State.groupFits.of_rearm (h : s.groupFits member g) (hd : s.esc.device = .supervise) :
    (rearmEntry k s).groupFits member (if member (s.entry k).defn.reaction then g.memberRearmed k else g) := by
  obtain ⟨hset, hstate⟩ := h
  have hn : (rearmEntry k s).esc.device ≠ .lockdown := by rw [device_rearmEntry, hd]; decide
  have hself : ((rearmEntry k s).entry k).failedIn member = false := by
    rw [entry_rearmEntry, if_pos rfl]
    exact Entry.failedIn_of_ne EntryState.noConfusion member
  have hothers : ∀ j, j ≠ k → (rearmEntry k s).entry j = s.entry j := fun j hj => by
    rw [entry_rearmEntry, if_neg (Ne.symm hj)]
  by_cases hm : member (s.entry k).defn.reaction = true
  · rw [if_pos hm]
    refine ⟨fun j => ?_, ?_⟩
    · rw [failed_memberRearmed]
      split
      · rename_i hj; rw [← hj, hself]
      · rename_i hj; rw [hothers j (Ne.symm hj), hset j]
    · rw [tripped_memberRearmed_iff k fun j hj => hstate.mpr (.inr ⟨j, hj⟩)]
      simp only [hn, false_or, failed_memberRearmed_iff]
  · rw [if_neg hm]
    rw [Bool.not_eq_true] at hm
    refine State.groupFits.of_kept ⟨hset, hstate⟩ (fun j => ?_) (by rw [device_rearmEntry])
    by_cases hj : j = k
    · rw [hj, hself, Entry.failedIn, hm, Bool.and_false]
    · rw [hothers j hj]

/-- The entry into LOCKDOWN trips every group and leaves its set (R151). -/
theorem State.groupFits.trip (h : s.groupFits member g) (reason : LockdownReason) :
    (enterLockdown reason s).groupFits member g.trip := by
  obtain ⟨hset, -⟩ := h
  refine ⟨fun j => ?_, iff_of_true rfl (.inl (by rw [esc_enterLockdown]; rfl))⟩
  rw [entry_enterLockdown]
  exact hset j

end groups

/-- START and STOP change no entry from or to FAILED, when STOP finds none (R17, R18). -/
theorem failedIn_started (e : Entry) (member : Reaction → Bool) : e.started.failedIn member = e.failedIn member := by
  unfold Entry.started
  split
  · rename_i hs
    rw [Entry.failedIn_of_ne EntryState.noConfusion, Entry.failedIn_of_ne]
    rw [beq_iff_eq.mp hs]
    exact EntryState.noConfusion
  · rfl
theorem failedIn_stopped {e : Entry} (hf : e.state ≠ .failed) (member : Reaction → Bool) :
    e.stopped.failedIn member = e.failedIn member := by
  unfold Entry.stopped
  split
  · rw [Entry.failedIn_of_ne hf]
    exact Entry.failedIn_of_ne EntryState.noConfusion member
  · rfl

/-- The group that a selector names, and the Escalation Unit's record with another state of it (R160, R182). -/
theorem group_eq (s : State) (sel : Byte) : s.group sel = if sel = 0#8 then s.esc.groupA else s.esc.groupB := by
  simp [State.group]
theorem esc_setGroupState (s : State) (sel : Byte) (x : GroupState) : (s.setGroupState sel x).esc =
    if sel = 0#8 then { s.esc with groupA := ⟨x, s.esc.groupA.failed⟩ }
    else { s.esc with groupB := ⟨x, s.esc.groupB.failed⟩ } := by
  unfold State.setGroupState
  by_cases h : sel = 0#8 <;> simp [h]

/-- Both groups stay while no entry comes to FAILED or leaves it, and LOCKDOWN neither comes nor goes. -/
theorem GroupLaw.of_kept {s t : State} (h : GroupLaw s) (hA : t.esc.groupA = s.esc.groupA)
    (hB : t.esc.groupB = s.esc.groupB) (hf : ∀ k member, (t.entry k).failedIn member = (s.entry k).failedIn member)
    (hd : t.esc.device = .lockdown ↔ s.esc.device = .lockdown) : GroupLaw t := by
  obtain ⟨hfitsA, hfitsB⟩ := (groupLaw_iff s).mp h
  refine (groupLaw_iff t).mpr ⟨?_, ?_⟩
  · rw [hA]; exact hfitsA.of_kept (fun k => hf k _) hd
  · rw [hB]; exact hfitsB.of_kept (fun k => hf k _) hd

theorem keepsEscalation_groupLaw : KeepsEscalation GroupLaw where
  moved _ _ hesc hm h := h.of_kept (by rw [hesc]) (by rw [hesc]) (fun k => (hm k).failedIn) (by rw [hesc])
  failure s t k hf h := by
    obtain ⟨hA, hB⟩ := (groupLaw_iff s).mp h
    refine (groupLaw_iff t).mpr ⟨?_, ?_⟩
    · rw [hf.esc]; exact hA.of_failure rfl hf
    · rw [hf.esc]; exact hB.of_failure rfl hf
  rearm s k hd hs h := by
    obtain ⟨hA, hB⟩ := (groupLaw_iff s).mp h
    have hesc : (rearmEntry k s).esc = applyRearm k (s.entry k).defn.reaction s.esc := by
      rw [esc_rearmEntry, if_pos hs]
    refine (groupLaw_iff _).mpr ⟨?_, ?_⟩
    · rw [hesc]; exact hA.of_rearm hd
    · rw [hesc]; exact hB.of_rearm hd
  start s hd h := h.of_kept (by simp) (by simp) (fun k => by rw [entry_startSupervision]; exact failedIn_started _)
    (by simp [hd])
  stop s hd hf h := h.of_kept (by simp) (by simp)
    (fun k => by rw [entry_stopSupervision]; exact failedIn_stopped (hf k)) (by simp [hd])
  lockdown s _ h := by
    obtain ⟨hA, hB⟩ := (groupLaw_iff s).mp h
    refine (groupLaw_iff _).mpr ⟨?_, ?_⟩
    · rw [esc_enterLockdown]; exact hA.trip _
    · rw [esc_enterLockdown]; exact hB.trip _
  group s sel x hs hx h := by
    obtain ⟨hA, hB⟩ := (groupLaw_iff s).mp h
    have hkept : ∀ {member g}, s.groupFits member g → (s.setGroupState sel x).groupFits member g := fun hg =>
      hg.of_kept (fun k => by rw [entry_setGroupState]) (by rw [device_setGroupState])
    refine (groupLaw_iff _).mpr ?_
    rw [esc_setGroupState]
    rw [group_eq] at hs
    by_cases hsel : sel = 0#8
    · rw [if_pos hsel] at hs ⊢
      exact ⟨hkept (hA.of_state hs hx), hkept hB⟩
    · rw [if_neg hsel] at hs ⊢
      exact ⟨hkept hA, hkept (hB.of_state hs hx)⟩
  reset t hesc he := by
    have hnone : ∀ k member, (t.entry k).failedIn member = false := fun k member => by rw [he k]; rfl
    have hfits : ∀ member, t.groupFits member resetGroup := fun member =>
      ⟨fun k => (failed_resetGroup k).trans (hnone k member).symm,
        iff_of_false GroupState.noConfusion fun hc => by
          rcases hc with hl | ⟨k, hk⟩
          · rw [hesc] at hl; cases hl
          · rw [failed_resetGroup] at hk; cases hk⟩
    refine (groupLaw_iff t).mpr ?_
    rw [hesc]
    exact ⟨hfits _, hfits _⟩

/-- Settles O57: every change of escalation keeps each of the two laws. -/
theorem stepKeepsEscalation : Obligations.StepKeepsEscalation :=
  fun _ _ hx => ⟨step_preserves keepsEscalation_deviceLaw.keeps (fun _ _ h => h) hx,
    step_preserves keepsEscalation_groupLaw.keeps (fun _ _ h => h) hx⟩

/-! ### RELEASE_GROUP and FORCE_GROUP (R160, R161) -/

/-- What each command does to the group that its selector names, by the group's state. -/
theorem releaseGroup_of_latched {s : State} {sel : Byte} (h : (s.group sel).state = .latched) :
    releaseGroup sel s = reply 0x23#8 0 (s.setGroupState sel .clear) := by rw [releaseGroup, h]
theorem releaseGroup_of_tripped {s : State} {sel : Byte} (h : (s.group sel).state = .tripped) :
    releaseGroup sel s = refuse 0x23#8 .failPresent s := by rw [releaseGroup, h]
theorem releaseGroup_of_clear {s : State} {sel : Byte} (h : (s.group sel).state = .clear) :
    releaseGroup sel s = reply 0x23#8 0 s := by rw [releaseGroup, h]
theorem forceGroup_of_clear {s : State} {sel : Byte} (h : (s.group sel).state = .clear) :
    forceGroup sel s = reply 0x24#8 0 (s.setGroupState sel .latched) := by rw [forceGroup, h]
theorem forceGroup_of_ne {s : State} {sel : Byte} (h : (s.group sel).state ≠ .clear) :
    forceGroup sel s = reply 0x24#8 0 s := by
  unfold forceGroup
  cases hs : (s.group sel).state with
  | clear => exact absurd hs h
  | tripped | latched => rfl

/-- RELEASE_GROUP is admitted outside LOCKDOWN, FORCE_GROUP in every device state (R182). -/
theorem admits_releaseGroup {d : DeviceState} (hd : d ≠ .lockdown) (sel : Byte) : admits 0x23#8 sel d = true := by
  cases d with
  | configure | supervise => rfl
  | lockdown => exact absurd rfl hd
theorem admits_forceGroup (d : DeviceState) (sel : Byte) : admits 0x24#8 sel d = true := by cases d <;> rfl

/-- An admitted command on a group, in a frame that its row carries whole, runs on the named group. -/
theorem takeGroupCommand_of_ready {s : State} (h : s.linkReady) {code sel : Byte} (hsel : sel.toNat ≤ 1)
    (ha : admits code sel s.esc.device = true) (arg : Bytes8) (run : Byte → State → State) :
    takeCommand code (fun v _ => checked code v (namesGroup v) (run v)) sel arg s =
      run sel (received code sel arg s) := by
  rw [takeCommand_of_ready h, checked_of_ok (by rwa [esc_received])]
  exact decide_eq_true hsel

section commands
variable {s : State} {sel : Byte} (hr : s.linkReady)
include hr

theorem exec_releaseGroup_of_lockdown (hd : s.esc.device = .lockdown) (arg : Bytes8) :
    exec (.releaseGroup sel arg) s = .next (refuse 0x23#8 .badState (received 0x23#8 sel arg s)) := by
  show Host.Outcome.next (takeCommand _ _ _ _ _) = _
  rw [takeCommand_of_ready hr, checked_of_state (by rw [esc_received, hd]; rfl)]
theorem exec_releaseGroup_of_range (hd : s.esc.device ≠ .lockdown) (hsel : 1 < sel.toNat) (arg : Bytes8) :
    exec (.releaseGroup sel arg) s = .next (refuse 0x23#8 .badField (received 0x23#8 sel arg s)) := by
  show Host.Outcome.next (takeCommand _ _ _ _ _) = _
  rw [takeCommand_of_ready hr, checked_of_range (admits_releaseGroup (by rwa [esc_received]) sel)]
  exact decide_eq_false (Nat.not_le.mpr hsel)
theorem exec_releaseGroup (hd : s.esc.device ≠ .lockdown) (hsel : sel.toNat ≤ 1) (arg : Bytes8) :
    exec (.releaseGroup sel arg) s = .next (releaseGroup sel (received 0x23#8 sel arg s)) :=
  congrArg _ (takeGroupCommand_of_ready hr hsel (admits_releaseGroup hd sel) arg releaseGroup)
theorem exec_forceGroup (hsel : sel.toNat ≤ 1) (arg : Bytes8) :
    exec (.forceGroup sel arg) s = .next (forceGroup sel (received 0x24#8 sel arg s)) :=
  congrArg _ (takeGroupCommand_of_ready hr hsel (admits_forceGroup _ sel) arg forceGroup)

end commands

/-- In CONFIGURE no entry is FAILED, so that no group is TRIPPED (R158, R159). -/
theorem not_tripped_of_configure {s : State} (hc : s.esc.device = .configure) (hd : DeviceLaw s) {g : Group}
    {member : Reaction → Bool} (hg : s.groupFits member g) : g.state ≠ .tripped := by
  obtain ⟨hallows, -⟩ := hd
  obtain ⟨hset, hstate⟩ := hg
  rw [Ne, hstate, hc]
  rintro (hl | ⟨k, hk⟩)
  · cases hl
  · rw [hset k, Entry.failedIn_of_ne] at hk
    · cases hk
    · rcases hallows hc k with hs | hs <;> rw [hs] <;> exact EntryState.noConfusion

/-- RELEASE_GROUP of a group that is not TRIPPED is DONE (R160). -/
theorem reply_releaseGroup_of_not_tripped {s : State} {sel : Byte} (h : (s.group sel).state ≠ .tripped) :
    (releaseGroup sel s).mlc.reply = ⟨.done, 0x23#8, 0⟩ := by
  cases hs : (s.group sel).state with
  | latched => rw [releaseGroup_of_latched hs]; rfl
  | tripped => exact absurd hs h
  | clear => rw [releaseGroup_of_clear hs]; rfl

/-- A fail line is deasserted exactly while its group is CLEAR (R162). -/
theorem lineAsserted_eq_false_iff (g : Group) : g.lineAsserted = false ↔ g.state = .clear := by
  simp [Group.lineAsserted]

/-- Settles O47, by the state of the named group. -/
theorem groupCommandTables : Obligations.GroupCommandTables := by
  refine ⟨fun s arg hr => ⟨fun hd sel => exec_releaseGroup_of_lockdown hr hd arg,
      fun hd sel hsel => exec_releaseGroup_of_range hr hd hsel arg, fun hd => ?release,
      fun hc hdev hgroup sel hsel => ?done⟩,
    fun s arg hr => ?force, fun g k => ⟨rfl, rfl⟩,
    fun s => ⟨lineAsserted_eq_false_iff s.esc.groupA, lineAsserted_eq_false_iff s.esc.groupB⟩⟩
  case release =>
    intro a b
    rw [exec_releaseGroup hr hd (sel := 0#8) (by decide), exec_releaseGroup hr hd (sel := 1#8) (by decide)]
    exact ⟨fun h => congrArg _ (releaseGroup_of_latched (s := a) (sel := 0#8) h),
      fun h => congrArg _ (releaseGroup_of_tripped (s := a) (sel := 0#8) h),
      fun h => congrArg _ (releaseGroup_of_clear (s := a) (sel := 0#8) h),
      fun h => congrArg _ (releaseGroup_of_latched (s := b) (sel := 1#8) h),
      fun h => congrArg _ (releaseGroup_of_tripped (s := b) (sel := 1#8) h),
      fun h => congrArg _ (releaseGroup_of_clear (s := b) (sel := 1#8) h)⟩
  case done =>
    obtain ⟨hA, hB⟩ := (groupLaw_iff s).mp hgroup
    refine ⟨_, exec_releaseGroup hr (by rw [hc]; decide) hsel arg, reply_releaseGroup_of_not_tripped ?_⟩
    rw [group_eq, esc_received]
    split
    · exact not_tripped_of_configure hc hdev hA
    · exact not_tripped_of_configure hc hdev hB
  case force =>
    intro a b
    rw [exec_forceGroup hr (sel := 0#8) (by decide), exec_forceGroup hr (sel := 1#8) (by decide)]
    exact ⟨fun h => congrArg _ (forceGroup_of_clear (s := a) (sel := 0#8) h),
      fun h => congrArg _ (forceGroup_of_ne (s := a) (sel := 0#8) h),
      fun h => congrArg _ (forceGroup_of_clear (s := b) (sel := 1#8) h),
      fun h => congrArg _ (forceGroup_of_ne (s := b) (sel := 1#8) h)⟩

/-! ### The output lines (R157, R162, R171) -/

/-- The members of each group (R157). -/
theorem inGroupA_iff (r : Reaction) : r.inGroupA = true ↔ r = .groupA ∨ r = .groupAB ∨ r = .lockdown := by
  cases r <;> simp [Reaction.inGroupA]
theorem inGroupB_iff (r : Reaction) : r.inGroupB = true ↔ r = .groupB ∨ r = .groupAB ∨ r = .lockdown := by
  cases r <;> simp [Reaction.inGroupB]

theorem alertAsserted_iff (s : State) :
    s.alertAsserted = true ↔ s.events.attention ≠ [] ∧ s.mlc.alertEnable = true := by
  simp [State.alertAsserted, and_comm]

theorem lineAsserted_iff (g : Group) : g.lineAsserted = true ↔ g.state = .tripped ∨ g.state = .latched := by
  unfold Group.lineAsserted
  cases g.state <;> decide

/-- In LOCKDOWN, and while a member is FAILED, the group is TRIPPED and its line asserted (R158, R162). -/
theorem State.groupFits.lineAsserted {s : State} {member : Reaction → Bool} {g : Group} (h : s.groupFits member g)
    (hc : s.esc.device = .lockdown ∨ ∃ k, (s.entry k).state = .failed ∧ member (s.entry k).defn.reaction = true) :
    g.lineAsserted = true := by
  obtain ⟨hset, hstate⟩ := h
  refine (lineAsserted_iff g).mpr (.inl (hstate.mpr (hc.imp id ?_)))
  rintro ⟨k, hs, hm⟩
  exact ⟨k, by rw [hset k, Entry.failedIn, hs, hm]; rfl⟩

/-- Settles O48, line by line. -/
theorem outputLines : Obligations.OutputLines := by
  refine ⟨fun r => ⟨inGroupA_iff r, inGroupB_iff r⟩, fun s => ⟨alertAsserted_iff s, lineAsserted_iff s.esc.groupA,
    lineAsserted_iff s.esc.groupB, fun hg hc => ?groupA, fun hg hc => ?groupB⟩⟩
  case groupA => exact ((groupLaw_iff s).mp hg).1.lineAsserted hc
  case groupB => exact ((groupLaw_iff s).mp hg).2.lineAsserted hc

end Sys2Proof.Machine

/-! PROOF. The Event Latch block: the law of the Attention List, the collections, and what COLLECTED_PART reads (R166 to
R174, R190). -/
namespace Sys2Proof.Machine

/-! ### The law of the Attention List, entry by entry (R16, R168, R173) -/

/-- What `AttentionLaw` says of one entry. -/
def State.latchFits (s : State) (k : Index) : Prop :=
  (k ∈ s.events.attention ↔ (s.latch k).latched &&& (s.entry k).defn.alertKinds ≠ 0) ∧
  ((s.latch k).latched = 0 → s.latch k = clearedLatch) ∧
  ((s.entry k).state = .empty → (s.latch k).latched = 0)

theorem attentionLaw_iff (s : State) :
    AttentionLaw s ↔ s.events.attention.Nodup ∧ ∀ k, s.latchFits k := by
  simp only [AttentionLaw, State.latchFits, forall_and]

/-- A change of an entry that leaves its latch record right: its alert kinds stay and it does not become EMPTY. Of an
EMPTY entry any change does, because nothing is latched there. -/
def Entry.keepsAlerts (e x : Entry) : Prop :=
  e.state = .empty ∨ (x.state ≠ .empty ∧ x.defn.alertKinds = e.defn.alertKinds)

theorem Entry.keepsAlerts_refl (e : Entry) : e.keepsAlerts e := by
  by_cases he : e.state = .empty
  · exact .inl he
  · exact .inr ⟨he, rfl⟩

/-- A pending half is no matter of the latches. -/
theorem Entry.keepsAlerts_discardPending (e : Entry) : e.keepsAlerts e.discardPending := e.keepsAlerts_refl

theorem Entry.keepsAlerts_of_ne {e x : Entry} (hx : x.state ≠ .empty) (hd : x.defn = e.defn) : e.keepsAlerts x :=
  .inr ⟨hx, by rw [hd]⟩

theorem writesEntry.keepsAlerts {k : Index} {e : Entry} {s t : State} (h : writesEntry k e s t)
    (he : (s.entry k).keepsAlerts e) (j : Index) : (s.entry j).keepsAlerts (t.entry j) := by
  obtain ⟨hs, hd⟩ := h.state_and_defn j
  unfold Entry.keepsAlerts
  rw [hs, hd]
  by_cases hj : k = j
  · rw [if_pos hj, ← hj]; exact he
  · rw [if_neg hj]; exact Entry.keepsAlerts_refl _

/-- The law of an entry whose latch record and place in the list stay. -/
theorem State.latchFits.of_kept {s t : State} {k : Index} (h : s.latchFits k)
    (hm : k ∈ t.events.attention ↔ k ∈ s.events.attention) (hl : t.latch k = s.latch k)
    (he : (s.entry k).keepsAlerts (t.entry k)) : t.latchFits k := by
  obtain ⟨hlisted, hcleared, hempty⟩ := h
  unfold State.latchFits
  rw [hm, hl, hlisted]
  rcases he with he | ⟨hne, halert⟩
  · rw [hempty he]
    exact ⟨by simp, fun _ => hcleared (hempty he), fun _ => rfl⟩
  · rw [halert]
    exact ⟨Iff.rfl, hcleared, fun he => absurd he hne⟩

/-- The law of an entry with a cleared record that is not in the list. -/
theorem State.latchFits_of_cleared {s : State} {k : Index} (hm : k ∉ s.events.attention)
    (hl : s.latch k = clearedLatch) : s.latchFits k := by
  unfold State.latchFits
  rw [hl]
  exact ⟨iff_of_false hm (by simp [clearedLatch]), fun _ => rfl, fun _ => rfl⟩

/-! ### What the operations on the latches do to the law -/

/-- An operation that does not touch the Event Latch block. -/
theorem AttentionLaw.of_kept {s t : State} (h : AttentionLaw s) (hev : t.events = s.events)
    (he : ∀ k, (s.entry k).keepsAlerts (t.entry k)) : AttentionLaw t := by
  obtain ⟨hnodup, hfits⟩ := (attentionLaw_iff s).mp h
  refine (attentionLaw_iff t).mpr ⟨by rwa [hev], fun k => ?_⟩
  exact (hfits k).of_kept (by rw [hev]) (latch_congr hev k) (he k)

theorem AttentionLaw.of_same {s t : State} (h : AttentionLaw s) (hs : SameRecords s t) : AttentionLaw t :=
  h.of_kept hs.events fun k => by rw [entry_congr hs.entries k]; exact Entry.keepsAlerts_refl _

/-- The record of entry `k` is cleared and it leaves the list; whatever else happens to that entry, the others stay. -/
theorem AttentionLaw.of_cleared {s t : State} {k : Index} (h : AttentionLaw s) (hev : t.events = (clearLatch k s).events)
    (he : ∀ j, j ≠ k → t.entry j = s.entry j) : AttentionLaw t := by
  obtain ⟨hnodup, hfits⟩ := (attentionLaw_iff s).mp h
  have hlist : t.events.attention = s.events.attention.filter (· != k) := by rw [hev, attention_clearLatch]
  have hlatch (j : Index) : t.latch j = if k = j then clearedLatch else s.latch j :=
    (latch_congr hev j).trans (latch_clearLatch k s j)
  refine (attentionLaw_iff t).mpr ⟨by rw [hlist]; exact hnodup.filter _, fun j => ?_⟩
  by_cases hj : j = k
  · subst hj
    exact State.latchFits_of_cleared (by simp [hlist]) (by rw [hlatch, if_pos rfl])
  · refine (hfits j).of_kept (by simp [hlist, hj]) (by rw [hlatch, if_neg (Ne.symm hj)]) ?_
    rw [he j hj]
    exact Entry.keepsAlerts_refl _

/-- After a power-on or soft reset nothing is latched and the list is empty (R176). -/
theorem attentionLaw_of_reset {t : State} (hev : t.events = resetEvents) : AttentionLaw t := by
  have hlatch (k : Index) : t.latch k = clearedLatch := by simp [State.latch, hev, resetEvents]
  refine (attentionLaw_iff t).mpr ⟨by rw [hev]; exact List.nodup_nil, fun k => ?_⟩
  exact State.latchFits_of_cleared (by rw [hev]; exact List.not_mem_nil) (hlatch k)

/-- A latched alert kind stays latched when more kinds come (R166). -/
theorem alert_or_ne_zero {latched alert : BitVec 16} (h : latched &&& alert ≠ 0) (kinds : BitVec 16) :
    (latched ||| kinds) &&& alert ≠ 0 := by
  intro hz
  rw [BitVec.and_comm, BitVec.and_or_distrib_left] at hz
  exact h (by rw [BitVec.and_comm]; exact (BitVec.or_eq_zero_iff.mp hz).1)

/-- Kinds handed on for an entry that is not EMPTY: it joins the list at the tail when its first alert kind comes, and so
at most once (R168). Edges and a capture come with a kind alone. -/
theorem attentionLaw_latchEvents {s : State} (h : AttentionLaw s) {k : Index} (hs : (s.entry k).state ≠ .empty)
    {kinds : BitVec 16} {rise fall : BitVec 32} {capture : Option Capture}
    (hz : kinds = 0 → rise = 0 ∧ fall = 0 ∧ capture = none) :
    AttentionLaw (latchEvents k kinds rise fall capture s) := by
  obtain ⟨hnodup, hfits⟩ := (attentionLaw_iff s).mp h
  obtain ⟨hlisted, hcleared, -⟩ := hfits k
  have hlist := attention_latchEvents k kinds rise fall capture s
  refine (attentionLaw_iff _).mpr ⟨?nodup, fun j => ?fits⟩
  case nodup =>
    rw [hlist]
    split
    · rename_i hjoins
      rw [← List.concat_eq_append]
      exact hnodup.concat fun hmem => hlisted.mp hmem hjoins.1
    · exact hnodup
  case fits =>
    by_cases hj : j = k
    · subst hj
      unfold State.latchFits
      rw [hlist, latch_latchEvents, if_pos rfl, entry_latchEvents]
      refine ⟨?_, fun hnone => ?_, fun he => absurd he hs⟩
      · show _ ↔ ((s.latch j).latched ||| kinds) &&& (s.entry j).defn.alertKinds ≠ 0
        split
        · rename_i hjoins
          exact iff_of_true (List.mem_append_right _ List.mem_cons_self) hjoins.2
        · rename_i hstays
          rw [hlisted]
          exact ⟨fun hb => alert_or_ne_zero hb kinds, fun ha hb => hstays ⟨hb, ha⟩⟩
      · obtain ⟨hbefore, hkinds⟩ := BitVec.or_eq_zero_iff.mp hnone
        obtain ⟨rfl, rfl, rfl⟩ := hz hkinds
        rw [hcleared hbefore, hkinds]
        rfl
    · refine (hfits j).of_kept ?_ (by rw [latch_latchEvents, if_neg (Ne.symm hj)]) ?_
      · rw [hlist]
        split
        · simp [hj]
        · exact Iff.rfl
      · rw [entry_latchEvents]
        exact Entry.keepsAlerts_refl _

/-- A failure writes no latch, and of the entries discards pending halves alone (R155, R156). -/
theorem attentionLaw_takeFailure {s : State} (h : AttentionLaw s) (k : Index) : AttentionLaw (takeFailure k s) := by
  refine h.of_kept (events_takeFailure k s) fun j => ?_
  rw [entry_takeFailure]
  split
  · exact Entry.keepsAlerts_discardPending _
  · exact Entry.keepsAlerts_refl _

/-! ### What an inspected write and an expiry hand on -/

/-- The checks find an edge only with its kind (R90). -/
theorem edges_of_no_notice {e : Entry} {c : Option Value} (h : (findings e c).notices = 0) :
    (findings e c).rise = 0 ∧ (findings e c).fall = 0 := by
  cases c with
  | none => exact ⟨rfl, rfl⟩
  | some v =>
    cases hf : e.defn.format with
    | unsigned | signed | real32 | real64 =>
      rw [findings_of_numeric (by rw [hf]; rfl)]
      exact ⟨rfl, rfl⟩
    | sequence =>
      rw [findings_of_sequence hf]
      exact ⟨rfl, rfl⟩
    | flags =>
      rw [findings_of_flags hf] at h ⊢
      obtain ⟨hup, hdown⟩ := BitVec.or_eq_zero_iff.mp h
      exact ⟨bne_eq_false_iff_eq.mp (kindIf_eq_zero.mp hup), bne_eq_false_iff_eq.mp (kindIf_eq_zero.mp hdown)⟩

/-- An inspection that hands on no kind hands on no edge and no capture (R67, R68, R91). -/
theorem inspect_of_no_kind {e : Entry} {r : WriteRequest}
    (h : (inspect e r).faults ||| (inspect e r).notices ||| kindIf (inspect e r).tornAtFailure .torn = 0) :
    (inspect e r).rise = 0 ∧ (inspect e r).fall = 0 ∧ (inspect e r).capture = none := by
  obtain ⟨hkinds, -⟩ := BitVec.or_eq_zero_iff.mp h
  obtain ⟨hfaults, hnotices⟩ := BitVec.or_eq_zero_iff.mp hkinds
  rcases inspect_cases e r with ⟨-, hi⟩ | ⟨-, p, -, hi⟩ | ⟨-, -, hi⟩
  · rw [hi]; exact ⟨rfl, rfl, rfl⟩
  · rw [hi]; exact ⟨rfl, rfl, rfl⟩
  · rcases judge_cases e r (pairingStage e r) with ⟨hf, hj⟩ | ⟨-, -, hj⟩ | ⟨-, -, hj⟩ <;>
      rw [hi, hj] at hfaults hnotices ⊢
    · exact absurd hfaults hf
    · obtain ⟨hrise, hfall⟩ := edges_of_no_notice (BitVec.or_eq_zero_iff.mp hnotices).1
      exact ⟨hrise, hfall, rfl⟩
    · obtain ⟨hrise, hfall⟩ := edges_of_no_notice (BitVec.or_eq_zero_iff.mp hnotices).1
      exact ⟨hrise, hfall, rfl⟩

/-- An inspected write: the entry keeps its alert kinds, then its kinds are handed on, and then it may fail. -/
theorem attentionLaw_applyInspection {s : State} (h : AttentionLaw s) {k : Index} (hs : (s.entry k).state ≠ .empty)
    (r : WriteRequest) : AttentionLaw (applyInspection k r (inspect (s.entry k) r) s) := by
  let x := inspect (s.entry k) r
  let placed := placeSlot (inspectedSlot k x.next.defn r x) (applyTiming k x s)
  obtain ⟨hdefn, hstate⟩ := entryAfterWrite_keeps_table hs r
  have hentry (j : Index) : placed.entry j = if k = j then entryAfterWrite (s.entry k) r else s.entry j :=
    entry_applyTiming k x s j
  have hwrites : writesEntry k (entryAfterWrite (s.entry k) r) s placed := fun j => .inl (hentry j)
  have hplaced : AttentionLaw placed :=
    h.of_kept (events_applyTiming k x s) (hwrites.keepsAlerts (Entry.keepsAlerts_of_ne hstate hdefn))
  have hlatched : AttentionLaw
      (latchEvents k (x.faults ||| x.notices ||| kindIf x.tornAtFailure .torn) x.rise x.fall x.capture placed) :=
    attentionLaw_latchEvents hplaced (by rw [hentry, if_pos rfl]; exact hstate) inspect_of_no_kind
  cases hf : x.fails with
  | false => rw [applyInspection_of_not_fails hf]; exact hlatched
  | true => rw [applyInspection_of_fails hf]; exact attentionLaw_takeFailure hlatched k

/-- A LATE leaves its entry STALE or FAILED (R124, R129, R130, R132). -/
theorem Entry.late_state_ne_empty (e : Entry) : e.late.state ≠ .empty := by
  unfold Entry.late
  dsimp only
  split <;> exact EntryState.noConfusion

/-- An expiry: the entry keeps its alert kinds, then LATE is handed on, and then the entry may fail. -/
theorem attentionLaw_lateExpiry {s : State} (h : AttentionLaw s) (k : Index) : AttentionLaw (lateExpiry k s) := by
  have hne := (s.entry k).late_state_ne_empty
  have hlatched (w : Window) : AttentionLaw
      (latchEvents k (lateKinds (s.entry k)) 0 0 none ((s.setEntry k (s.entry k).late).setWindow k w)) := by
    have hwrites : writesEntry k (s.entry k).late s ((s.setEntry k (s.entry k).late).setWindow k w) :=
      fun j => .inl (entry_setEntry s k j _)
    have hwritten : AttentionLaw ((s.setEntry k (s.entry k).late).setWindow k w) :=
      h.of_kept (by simp) (hwrites.keepsAlerts (Entry.keepsAlerts_of_ne hne rfl))
    exact attentionLaw_latchEvents hwritten (by rwa [entry_setWindow, entry_setEntry_self])
      fun _ => ⟨rfl, rfl, rfl⟩
  by_cases ht : (s.entry k).faultCounter + 1 = (s.entry k).defn.threshold
  · rw [lateExpiry_of_eq ht]; exact attentionLaw_takeFailure (hlatched _) k
  · rw [lateExpiry_of_ne ht]; exact hlatched _

/-! ### Every operation keeps the law -/

theorem attentionLaw_acceptWrite {s : State} (h : AttentionLaw s) (r : WriteRequest) :
    AttentionLaw (acceptWrite r s) := by
  unfold acceptWrite
  dsimp only
  split
  · exact h.of_same (sameRecords_placeIssued _ s)
  · exact h.of_same (sameRecords_placeSlot _ s)
  · exact h.of_same (sameRecords_placeSlot _ s)
  · split
    · rename_i hs
      exact attentionLaw_applyInspection h (EntryState.ne_empty_of_supervised hs) r
    · exact h.of_same (sameRecords_placeSlot _ s)

theorem Entry.keepsAlerts_afterProcessorReset (e : Entry) : e.keepsAlerts e.afterProcessorReset := by
  unfold Entry.afterProcessorReset
  split
  · exact Entry.keepsAlerts_of_ne EntryState.noConfusion rfl
  · exact e.keepsAlerts_refl
theorem Entry.keepsAlerts_started (e : Entry) : e.keepsAlerts e.started := by
  unfold Entry.started
  split
  · exact Entry.keepsAlerts_of_ne EntryState.noConfusion rfl
  · exact e.keepsAlerts_refl
theorem Entry.keepsAlerts_stopped (e : Entry) : e.keepsAlerts e.stopped := by
  unfold Entry.stopped
  split
  · exact Entry.keepsAlerts_of_ne EntryState.noConfusion rfl
  · exact e.keepsAlerts_refl

theorem events_installDraft (k : Index) (s : State) : (installDraft k s).events = s.events := by
  unfold installDraft
  split <;> rfl
theorem events_rearmEntry (k : Index) (s : State) : (rearmEntry k s).events = s.events := by
  unfold rearmEntry
  dsimp only
  split <;> rfl

theorem keeps_attentionLaw : Keeps AttentionLaw where
  link _ _ _ _ h := h.of_same ⟨rfl, rfl, rfl, rfl⟩
  free _ _ h := h.of_same ⟨rfl, rfl, rfl, rfl⟩
  offered _ _ h := h.of_same ⟨rfl, rfl, rfl, rfl⟩
  write _ r _ h := attentionLaw_acceptWrite h r
  read s r _ h := h.of_same (sameRecords_acceptRead r s)
  issue s _ h := h.of_same (sameRecords_issueOldest s)
  accept s h := h.of_same (sameRecords_acceptAccess s)
  answer s tag st d h := h.of_same (sameRecords_takeAnswer tag st d s)
  response s h := h.of_same (sameRecords_takeResponse s)
  prst _ _ h := h.of_same ⟨rfl, rfl, rfl, rfl⟩
  porst _ h := h.of_same ⟨rfl, rfl, rfl, rfl⟩
  processorReset s _ h := by
    refine h.of_kept (by simp) fun k => ?_
    rw [entry_drain, entry_rearmEntries]
    split
    · exact Entry.keepsAlerts_afterProcessorReset _
    · exact Entry.keepsAlerts_refl _
  powerOn _ _ := attentionLaw_of_reset rfl
  divider _ _ h := h.of_same ⟨rfl, rfl, rfl, rfl⟩
  lower s _ _ h := h.of_kept (by simp) fun k => by rw [entry_mapWindows]; exact Entry.keepsAlerts_refl _
  openPhase s k _ h := h.of_kept rfl
    (writesEntry.keepsAlerts (fun j => .inl (entry_setEntry s k j _)) (s.entry k).keepsAlerts_refl)
  late _ k _ h := attentionLaw_lateExpiry h k
  arming _ _ h := h.of_same ⟨rfl, rfl, rfl, rfl⟩
  poison _ _ _ h := h.of_same ⟨rfl, rfl, rfl, rfl⟩
  alert _ _ h := h.of_same ⟨rfl, rfl, rfl, rfl⟩
  draft _ _ _ h := h.of_same ⟨rfl, rfl, rfl, rfl⟩
  install s k _ he _ _ h := h.of_kept (events_installDraft k s)
    (writesEntry.keepsAlerts (fun j => .inl (entry_installDraft k s j)) (.inl he))
  retire s k _ _ _ h := h.of_cleared rfl fun j hj => by rw [entry_retireEntry, if_neg (Ne.symm hj)]
  rearm s k _ _ _ h := h.of_kept (events_rearmEntry k s)
    (writesEntry.keepsAlerts (fun j => .inl (entry_rearmEntry k s j))
      (Entry.keepsAlerts_of_ne EntryState.noConfusion rfl))
  start s _ h := h.of_kept (by simp) fun k => by
    rw [entry_startSupervision]; exact Entry.keepsAlerts_started _
  stop s _ _ h := h.of_kept (by simp) fun k => by
    rw [entry_stopSupervision]; exact Entry.keepsAlerts_stopped _
  lockdown s _ h := h.of_kept (by simp) fun k => by
    rw [entry_enterLockdown]; exact Entry.keepsAlerts_discardPending _
  release s sel _ _ h := h.of_kept (by simp) fun k => by
    rw [entry_setGroupState]; exact Entry.keepsAlerts_refl _
  force s sel _ h := h.of_kept (by simp) fun k => by
    rw [entry_setGroupState]; exact Entry.keepsAlerts_refl _
  collect _ _ _ h := h.of_cleared rfl fun _ _ => rfl
  softReset _ _ := attentionLaw_of_reset rfl

/-- Settles O58: an operation that latches kinds adds its entry to the list as it latches the first alert kind, one that
clears a record takes the entry off, and no other operation changes the alert kinds of an entry with something latched. -/
theorem stepKeepsTheAttentionList : Obligations.StepKeepsTheAttentionList :=
  fun _ _ h hx => step_preserves keeps_attentionLaw (fun _ _ hp => hp.of_same ⟨rfl, rfl, rfl, rfl⟩) hx h


/-! ### The fields of the data of a reply (R190) -/

/-- A number placed at byte `k`, read at the bit where its place begins. -/
theorem extract_dataAt_self {k lo w n : Nat} (hlo : lo = 8 * k) (h : lo + w ≤ 64) :
    (dataAt k n).extractLsb' lo w = BitVec.ofNat w n := by
  subst hlo
  exact extract_dataAt h

theorem boolCode_lt (b : Bool) : boolCode b < 2 ^ 8 := by cases b <;> decide
theorem EntryState.code_lt (st : EntryState) : st.code < 2 ^ 8 := by cases st <;> decide
theorem index_lt_byte (k : Index) : k.val < 2 ^ 8 := k.isLt.trans (by decide)
theorem ofNat_boolCode (b : Bool) : BitVec.ofNat 8 (boolCode b) = if b then 1#8 else 0#8 := by cases b <;> rfl

/-! The numbers of a reply lie in bytes of their own, so that a field read back is the number placed there, and of every
other number nothing. -/

/-- The reply to a collection, field by field. -/
theorem summary_fields {r : CollectionRecord} (hc : r.faultCounter < 2 ^ 8) :
    dataByte r.summary 0 = BitVec.ofNat 8 r.index.val ∧ r.summary.extractLsb' 8 16 = r.latched ∧
    dataByte r.summary 3 = (if r.capture.isSome then 1#8 else 0#8) ∧
    dataByte r.summary 4 = BitVec.ofNat 8 r.state.code ∧ dataByte r.summary 5 = BitVec.ofNat 8 r.faultCounter ∧
    r.summary.extractLsb' 48 16 = 0 := by
  have hindex := index_lt_byte r.index
  have hlatched := r.latched.isLt
  have hcapture := boolCode_lt r.capture.isSome
  have hstate := r.state.code_lt
  simp (disch := omega) [CollectionRecord.summary, dataByte, BitVec.extractLsb'_or, extract_dataAt_self,
    extract_dataAt_of_disjoint hindex, extract_dataAt_of_disjoint hlatched, extract_dataAt_of_disjoint hcapture,
    extract_dataAt_of_disjoint hstate, extract_dataAt_of_disjoint hc, ofNat_boolCode]

/-- Part 0 of the Collection Buffer, field by field. -/
theorem identityPart_fields {r : CollectionRecord} (hc : r.faultCounter < 2 ^ 8) :
    let b := collectedPartData (some r) 0
    dataByte b 0 = 1#8 ∧ dataByte b 1 = BitVec.ofNat 8 r.index.val ∧ b.extractLsb' 16 16 = r.latched ∧
    dataByte b 4 = BitVec.ofNat 8 r.state.code ∧ dataByte b 5 = BitVec.ofNat 8 r.faultCounter ∧
    dataByte b 6 = (if r.capture.isSome then 1#8 else 0#8) ∧ dataByte b 7 = 0#8 := by
  have hone : 1 < 2 ^ 8 := by decide
  have hindex := index_lt_byte r.index
  have hlatched := r.latched.isLt
  have hstate := r.state.code_lt
  have hcapture := boolCode_lt r.capture.isSome
  simp (disch := omega) [collectedPartData, dataByte, BitVec.extractLsb'_or, extract_dataAt_self,
    extract_dataAt_of_disjoint hone, extract_dataAt_of_disjoint hindex, extract_dataAt_of_disjoint hlatched,
    extract_dataAt_of_disjoint hstate, extract_dataAt_of_disjoint hc, extract_dataAt_of_disjoint hcapture,
    ofNat_boolCode]

/-- Part 3 of the Collection Buffer: the two sets of edges. -/
theorem edgesPart_fields (r : CollectionRecord) :
    (collectedPartData (some r) 3).extractLsb' 0 32 = r.rise ∧
    (collectedPartData (some r) 3).extractLsb' 32 32 = r.fall := by
  have hrise := r.rise.isLt
  have hfall := r.fall.isLt
  simp (disch := omega) [collectedPartData, BitVec.extractLsb'_or, extract_dataAt_self,
    extract_dataAt_of_disjoint hrise, extract_dataAt_of_disjoint hfall]

/-- How many words a capture holds, as part 2 reports it. -/
def Capture.wordCount (c : Capture) : Nat :=
  match c.words with
  | .word _ => 1
  | .pair _ _ => 2
/-- The half of a capture, as part 2 reports it. -/
def Capture.halfCode (c : Capture) : Nat :=
  match c.half with
  | none => 0
  | some h => h.code
/-- The class of a capture, as part 2 reports it. -/
def Capture.classCode (c : Capture) : Nat :=
  match c.cls with
  | none => 0xFF
  | some k => k.code

theorem factsData_eq (c : Capture) : c.factsData = dataAt 0 c.wordCount ||| dataAt 1 c.halfCode |||
    dataAt 2 c.initiator.val ||| dataAt 3 c.kinds.toNat ||| dataAt 5 c.classCode := rfl

/-- Part 2 of the Collection Buffer, field by field. -/
theorem factsData_fields (c : Capture) :
    dataByte c.factsData 0 = BitVec.ofNat 8 c.wordCount ∧ dataByte c.factsData 1 = BitVec.ofNat 8 c.halfCode ∧
    dataByte c.factsData 2 = BitVec.ofNat 8 c.initiator.val ∧ c.factsData.extractLsb' 24 16 = c.kinds ∧
    dataByte c.factsData 5 = BitVec.ofNat 8 c.classCode ∧ c.factsData.extractLsb' 48 16 = 0 := by
  have hcount : c.wordCount < 2 ^ 8 := by unfold Capture.wordCount; split <;> decide
  have hhalf : c.halfCode < 2 ^ 8 := by
    unfold Capture.halfCode
    cases c.half with
    | none => decide
    | some h => cases h <;> decide
  have hinitiator : c.initiator.val < 2 ^ 8 := c.initiator.isLt.trans (by decide)
  have hkinds := c.kinds.isLt
  have hclass : c.classCode < 2 ^ 8 := by
    unfold Capture.classCode
    cases c.cls with
    | none => decide
    | some k => cases k <;> decide
  simp (disch := omega) [factsData_eq, dataByte, BitVec.extractLsb'_or, extract_dataAt_self,
    extract_dataAt_of_disjoint hcount, extract_dataAt_of_disjoint hhalf, extract_dataAt_of_disjoint hinitiator,
    extract_dataAt_of_disjoint hkinds, extract_dataAt_of_disjoint hclass]

/-! ### COLLECT and COLLECT_ENTRY (R172 to R174, R190) -/

/-- The commands on the Collection Buffer are admitted in every device state (R182). -/
theorem admits_collection (d : DeviceState) (sel : Byte) :
    admits 0x30#8 sel d = true ∧ admits 0x31#8 sel d = true ∧ admits 0x32#8 sel d = true := by
  cases d <;> exact ⟨rfl, rfl, rfl⟩

theorem collectHead_of_nil {s : State} (h : s.events.attention = []) : collectHead s = refuse 0x30#8 .emptyList s := by
  rw [collectHead, h]
theorem collectHead_of_cons {s : State} {k : Index} {rest : List Index} (h : s.events.attention = k :: rest) :
    collectHead s = collectFrom 0x30#8 k s := by
  rw [collectHead, h]
theorem collectNamed_of_nothing {s : State} {k : Index} (h : (s.latch k).latched = 0) :
    collectNamed k s = refuse 0x31#8 .emptyList s := if_pos (beq_iff_eq.mpr h)
theorem collectNamed_of_latched {s : State} {k : Index} (h : (s.latch k).latched ≠ 0) :
    collectNamed k s = collectFrom 0x31#8 k s := if_neg fun hz => h (beq_iff_eq.mp hz)

/-- A collection clears the record of its entry and no other (R172). -/
theorem latch_collectFrom (code : Byte) (k : Index) (s : State) (j : Index) :
    (collectFrom code k s).latch j = if k = j then clearedLatch else s.latch j := latch_setLatch s k j _

/-- Settles O49: both commands collect an entry in one way, COLLECT the head of the list and COLLECT_ENTRY the entry that
its selector names. -/
theorem collectionEffects : Obligations.CollectionEffects := by
  intro s sel arg hr collected
  have hcollected (code : Byte) (k : Index) : collected code k (collectFrom code k (received code sel arg s)) := by
    refine ⟨rfl, ?cleared, fun j hj => ?others, rfl, rfl, rfl, fun hcounter hrange => ?data, ?frame⟩
    case cleared => rw [latch_collectFrom, if_pos rfl]
    case others => rw [latch_collectFrom, if_neg (Ne.symm hj), latch_received]
    case data =>
      have hbyte : (s.entry k).faultCounter < 2 ^ 8 := by
        obtain ⟨-, -, -, -, -, -, hthreshold⟩ := hrange.2 k
        obtain ⟨hle, -⟩ := hcounter k
        omega
      obtain ⟨hindex, hlatched, hcapture, hstate, hfaults, hrest⟩ :=
        summary_fields (r := s.collectionRecord k) hbyte
      refine ⟨hindex, hlatched, hcapture, hstate.trans ?_, hfaults, hrest⟩
      show BitVec.ofNat 8 (s.entry k).state.code = _
      cases (s.entry k).state <;> rfl
    case frame =>
      exact ⟨pins_received_of_ready hr code sel arg, rfl, rfl, rfl, rfl, rfl, rfl, rfl, rfl, rfl, rfl, rfl, rfl, rfl,
        rfl⟩
  obtain ⟨hadmitsHead, hadmitsNamed, -⟩ := admits_collection s.esc.device sel
  have hhead : exec (.collect sel arg) s = .next (collectHead (received 0x30#8 sel arg s)) :=
    congrArg _ (takeChecked_of_ready hr hadmitsHead arg collectHead)
  refine ⟨fun hnil => ?noHead, fun k rest hcons => ?head, fun k hk => ?entry⟩
  case noHead => rw [hhead, collectHead_of_nil (s := received 0x30#8 sel arg s) hnil]; rfl
  case head => exact ⟨_, by rw [hhead, collectHead_of_cons (s := received 0x30#8 sel arg s) hcons], hcollected _ k⟩
  case entry =>
    have hnamed : exec (.collectEntry sel arg) s = .next (collectNamed k (received 0x31#8 sel arg s)) :=
      congrArg _ (takeIndexCommand_of_ready hr hk hadmitsNamed arg collectNamed)
    refine ⟨fun hnone => ?_, fun hlatched => ?_⟩
    · rw [hnamed, collectNamed_of_nothing (s := received 0x31#8 sel arg s) hnone]; rfl
    · exact ⟨_, by rw [hnamed, collectNamed_of_latched (s := received 0x31#8 sel arg s) hlatched], hcollected _ k⟩

/-! ### COLLECTED_PART (R190) -/

/-- COLLECTED_PART, in a frame that its row carries whole. -/
theorem exec_collectedPart {s : State} (hr : s.linkReady) {sel : Byte} (hsel : sel.toNat ≤ 3) (arg : Bytes8) :
    exec (.collectedPart sel arg) s =
      .next (reply 0x32#8 (collectedPartData s.mlc.buffer sel.toNat) (received 0x32#8 sel arg s)) := by
  obtain ⟨-, -, hadmits⟩ := admits_collection s.esc.device sel
  show Host.Outcome.next (takeCommand _ _ _ _ _) = _
  rw [takeCommand_of_ready hr, checked_of_ok (by rwa [esc_received]) (decide_eq_true hsel)]
  rfl

/-- Part 1 of the Collection Buffer: one word, or the pair as a binary64 encoding (R76). -/
theorem wordsData_of_word {c : Capture} {w : Word} (h : c.words = .word w) : c.wordsData = w.setWidth 64 := by
  rw [Capture.wordsData, h, BitVec.setWidth_eq_append (by decide)]
  rfl
theorem wordsData_of_pair {c : Capture} {lo hi : Word} (h : c.words = .pair lo hi) : c.wordsData = hi ++ lo := by
  rw [Capture.wordsData, h]
  rfl

/-- Settles O50, part by part of the record in the buffer. (The obligation's own name is that of the model's function.) -/
theorem collectedPart_data : Obligations.CollectedPartData := by
  intro s sel arg hr hsel
  refine ⟨_, _, exec_collectedPart hr hsel arg, sameButLink_reply (sameButLink_received hr _ _ _) _ _, rfl,
    fun hnone => by rw [hnone]; rfl, fun r hbuffer hcounter => ?_⟩
  rw [hbuffer]
  refine ⟨fun h => ?identity, fun h => ?edges, fun h hnone => ?nothing,
    fun c hcapture => ⟨fun h => ?words, fun h => ?facts⟩⟩
  case identity =>
    subst h
    obtain ⟨hheld, hindex, hlatched, hstate, hrest⟩ := identityPart_fields (r := r) (by omega)
    refine ⟨hheld, hindex, hlatched, hstate.trans ?_, hrest⟩
    cases r.state <;> rfl
  case edges => subst h; exact edgesPart_fields r
  case nothing => rcases h with rfl | rfl <;> simp [collectedPartData, hnone]
  case words =>
    subst h
    have hdata : collectedPartData (some r) 1 = c.wordsData := by simp [collectedPartData, hcapture]
    rw [show (1#8).toNat = 1 from rfl, hdata]
    cases hw : c.words with
    | word w => exact wordsData_of_word hw
    | pair lo hi => exact wordsData_of_pair hw
  case facts =>
    subst h
    have hdata : collectedPartData (some r) 2 = c.factsData := by simp [collectedPartData, hcapture]
    obtain ⟨hcount, hhalf, hinitiator, hkinds, hclass, hrest⟩ := factsData_fields c
    rw [show (2#8).toNat = 2 from rfl, hdata]
    refine ⟨hcount.trans ?_, hhalf.trans ?_, hinitiator, hkinds, hclass.trans ?_, hrest⟩
    · unfold Capture.wordCount
      cases c.words <;> rfl
    · unfold Capture.halfCode
      cases c.half with
      | none => rfl
      | some h => cases h <;> rfl
    · unfold Capture.classCode
      cases c.cls with
      | none => rfl
      | some k => cases k <;> rfl

end Sys2Proof.Machine

/-! PROOF. The management link: its shift registers and frames, the checks on a frame and on a command, and the replies
(chapter 11). -/
namespace Sys2Proof.Machine

/-! ### Bits shifted into a register (R177) -/

/-- A register after bits have been shifted in at its low end, first bit first. -/
def shiftedIn {n : Nat} (r : BitVec n) (bits : List Bool) : BitVec n :=
  bits.foldl (fun c b => (c <<< 1) ||| (BitVec.ofBool b).setWidth n) r

theorem byteOf_eq (bits : List Bool) : byteOf bits = shiftedIn 0#8 bits := rfl

theorem shiftedIn_cons {n : Nat} (r : BitVec n) (b : Bool) (bits : List Bool) :
    shiftedIn r (b :: bits) = shiftedIn ((r <<< 1) ||| (BitVec.ofBool b).setWidth n) bits := rfl

/-- One step of a shift register: the new bit is bit 0 and every other bit moves up. -/
theorem getLsbD_shift_zero {n : Nat} (hn : 0 < n) (r : BitVec n) (b : Bool) :
    ((r <<< 1) ||| (BitVec.ofBool b).setWidth n).getLsbD 0 = b := by
  cases b <;> simp [hn]
theorem getLsbD_shift_succ {n i : Nat} (hi : i + 1 < n) (r : BitVec n) (b : Bool) :
    ((r <<< 1) ||| (BitVec.ofBool b).setWidth n).getLsbD (i + 1) = r.getLsbD i := by
  simp [hi, BitVec.getLsbD_eq_getElem (Nat.lt_of_succ_lt hi)]

/-- The bits of a register that has been shifted: the last bit in is bit 0, and the old bits lie above the new ones. -/
theorem getLsbD_shiftedIn {n i : Nat} (hi : i < n) (r : BitVec n) (bits : List Bool) :
    (shiftedIn r bits).getLsbD i = bits.reverse[i]?.getD (r.getLsbD (i - bits.length)) := by
  induction bits using List.reverseRecOn generalizing i with
  | nil => simp [shiftedIn]
  | append_singleton bits b ih =>
    have hstep : shiftedIn r (bits ++ [b]) = (shiftedIn r bits <<< 1) ||| (BitVec.ofBool b).setWidth n := by
      simp [shiftedIn]
    rw [hstep]
    cases i with
    | zero => rw [getLsbD_shift_zero hi]; simp
    | succ i => rw [getLsbD_shift_succ hi, ih (by omega)]; simp

/-- A field of a shifted register is what its own bits alone, shifted into a register of its width, give. -/
theorem extract_shiftedIn {n lo w : Nat} (r : BitVec n) {bits : List Bool} (hlen : lo + w ≤ bits.length)
    (hn : lo + w ≤ n) :
    (shiftedIn r bits).extractLsb' lo w = shiftedIn 0 ((bits.drop (bits.length - lo - w)).take w) := by
  apply BitVec.eq_of_getLsbD_eq
  intro i hi
  rw [BitVec.getLsbD_extractLsb', getLsbD_shiftedIn (by omega), getLsbD_shiftedIn hi]
  have hfield : ((bits.drop (bits.length - lo - w)).take w).length = w := by simp; omega
  rw [List.getElem?_reverse (by omega), List.getElem?_reverse (by omega), hfield,
    List.getElem?_take_of_lt (by omega), List.getElem?_drop,
    show bits.length - lo - w + (w - 1 - i) = bits.length - 1 - (lo + i) by omega,
    List.getElem?_eq_getElem (by omega)]
  simp [hi]

/-- The bits of a word, shifted in one after the other, give the word, whatever the register held. -/
theorem shiftedIn_bitsOf {n : Nat} (r w : BitVec n) : shiftedIn r (bitsOf w) = w := by
  apply BitVec.eq_of_getLsbD_eq
  intro i hi
  rw [getLsbD_shiftedIn hi, List.getElem?_reverse (by simpa), bitsOf_length,
    List.getElem?_eq_getElem (by rw [bitsOf_length]; omega), bitsOf_getElem]
  simp [BitVec.getMsbD, show n - 1 - (n - 1 - i) = i by omega, show n - 1 - i < n by omega]

/-- As many bits as the register has, shifted in, are its bits. -/
theorem bitsOf_shiftedIn {n : Nat} (r : BitVec n) {bits : List Bool} (h : bits.length = n) :
    bitsOf (shiftedIn r bits) = bits := by
  refine List.ext_getElem (by rw [bitsOf_length, h]) fun i hi hi' => ?_
  rw [bitsOf_getElem, BitVec.getMsbD, getLsbD_shiftedIn (by omega), List.getElem?_reverse (by omega), h,
    show n - 1 - (n - 1 - i) = i by omega, List.getElem?_eq_getElem hi']
  simp [show i < n by omega]

/-! ### The bits of a frame as they come in (R177) -/

/-- A bit taken in is the first of the bits shifted in, until 88 are in (log 10). -/
theorem inReg_shiftIn (m : Mlc) (b : Bool) (bits : List Bool) :
    shiftedIn (m.shiftIn b).inReg (bits.take (88 - (m.bitCount + 1))) =
      shiftedIn m.inReg ((b :: bits).take (88 - m.bitCount)) := by
  by_cases h : m.bitCount < 88
  · rw [show 88 - m.bitCount = 88 - (m.bitCount + 1) + 1 by omega, List.take_succ_cons, shiftedIn_cons]
    simp [Mlc.shiftIn, Config.frameBits, h]
  · rw [show 88 - m.bitCount = 0 by omega, show 88 - (m.bitCount + 1) = 0 by omega]
    simp [Mlc.shiftIn, Config.frameBits, h]

/-- An open frame after some more bits, each with its two SCK edges: the bits are counted, the first 88 are taken in
(log 10), and as many have gone out. -/
theorem shiftBits_of_open (bits : List Bool) {s : State} (hc : s.pins.csLow = true) (ho : s.mlc.frameOpen = true) :
    shiftBits bits s = { s with mlc := { s.mlc with
      bitCount := s.mlc.bitCount + bits.length
      inReg := shiftedIn s.mlc.inReg (bits.take (88 - s.mlc.bitCount))
      outReg := s.mlc.outReg <<< bits.length } } := by
  induction bits generalizing s with
  | nil => simp [shiftBits, shiftedIn]
  | cons b bits ih =>
    have hstep : clockOut (clockIn b s) = { s with mlc := (s.mlc.shiftIn b).shiftOut } := by
      simp [clockIn, clockOut, hc, ho, Mlc.shiftIn]
    have hcount : s.mlc.bitCount + 1 + bits.length = s.mlc.bitCount + (b :: bits).length := by
      rw [List.length_cons]; omega
    have hout : s.mlc.outReg <<< 1 <<< bits.length = s.mlc.outReg <<< (b :: bits).length := by
      rw [← BitVec.shiftLeft_add, List.length_cons, Nat.add_comm]
    show shiftBits bits (clockOut (clockIn b s)) = _
    rw [hstep, ih (s := { s with mlc := (s.mlc.shiftIn b).shiftOut }) hc ho, ← inReg_shiftIn, ← hcount, ← hout]
    rfl

/-- CS_N falls on a link that is ready: the count starts again and the pending reply is loaded (R177). -/
theorem beginFrame_of_ready {s : State} (h : s.linkReady) : beginFrame s = { s with
    pins := { s.pins with csLow := true }
    mlc := { s.mlc with frameOpen := true, bitCount := 0, outReg := s.mlc.reply.word } } := by
  simp [beginFrame, h.2]

/-- The link in the middle of a frame, after these bits of it. -/
def midFrame (bits : List Bool) (s : State) : State :=
  { s with
    pins := { s.pins with csLow := true }
    mlc := { s.mlc with
      frameOpen := true, bitCount := bits.length, inReg := shiftedIn s.mlc.inReg (bits.take 88)
      outReg := s.mlc.reply.word <<< bits.length } }

theorem shiftBits_beginFrame {s : State} (h : s.linkReady) (bits : List Bool) :
    shiftBits bits (beginFrame s) = midFrame bits s := by
  rw [beginFrame_of_ready h, shiftBits_of_open bits rfl rfl]
  simp [midFrame]

/-- Settles O31: after each bit the reply has moved up by one, so that its top bit is the next one. -/
theorem replyComesOutOnMiso : Obligations.ReplyComesOutOnMiso := by
  intro s bits hr
  simp only [shiftBits_beginFrame hr bits]
  refine ⟨?miso, rfl, rfl, rfl, rfl, rfl, rfl, rfl⟩
  case miso =>
    have hbit : (s.mlc.reply.word <<< bits.length).msb = s.mlc.reply.word.getMsbD bits.length := by
      simp [BitVec.msb]
    simp [State.miso, midFrame, hr.2, hbit]

/-! ### The bytes of a frame (R178) -/

/-- The bytes of eight, in frame order: byte `k` of the number is the byte that travels as number `k`. -/
theorem getLsbD_swapBytes (x : Bytes8) {k i : Nat} (hk : k < 8) (hi : i < 8) :
    (swapBytes x).getLsbD (56 - 8 * k + i) = x.getLsbD (8 * k + i) := by
  unfold swapBytes
  interval_cases k <;> simp only [BitVec.getLsbD_append, BitVec.getLsbD_extractLsb'] <;> interval_cases i <;> rfl
theorem extract_swapBytes (x : Bytes8) {k : Nat} (hk : k < 8) :
    (swapBytes x).extractLsb' (56 - 8 * k) 8 = dataByte x k := by
  apply BitVec.eq_of_getLsbD_eq
  intro i hi
  rw [BitVec.getLsbD_extractLsb', getLsbD_swapBytes x hk hi, dataByte, BitVec.getLsbD_extractLsb']

/-- A frame without its CRC. -/
def frameBody (first second : Byte) (data : Bytes8) : BitVec 80 := first ++ second ++ swapBytes data

theorem frameWord_eq (first second : Byte) (data : Bytes8) : frameWord first second data =
    frameBody first second data ++ crc8 (bitsOf (frameBody first second data)) := rfl

section frameWord
variable (first second : Byte) (data : Bytes8)

theorem body_frameWord : (frameWord first second data).extractLsb' 8 80 = frameBody first second data :=
  BitVec.extractLsb'_append_eq_left

theorem crc_frameWord : (frameWord first second data).extractLsb' 0 8 =
    crc8 (bitsOf ((frameWord first second data).extractLsb' 8 80)) := by
  rw [body_frameWord]
  exact BitVec.extractLsb'_append_eq_right

/-- A field above the CRC is a field of the body. -/
theorem extract_frameWord {lo w : Nat} (h : 8 ≤ lo) : (frameWord first second data).extractLsb' lo w =
    (frameBody first second data).extractLsb' (lo - 8) w := by
  rw [frameWord_eq]
  exact BitVec.extractLsb'_append_eq_of_le h

theorem first_frameWord : (frameWord first second data).extractLsb' 80 8 = first := by
  rw [extract_frameWord _ _ _ (by decide), frameBody, BitVec.extractLsb'_append_eq_of_le (by decide)]
  exact BitVec.extractLsb'_append_eq_left

theorem second_frameWord : (frameWord first second data).extractLsb' 72 8 = second := by
  rw [extract_frameWord _ _ _ (by decide), frameBody, BitVec.extractLsb'_append_eq_of_le (by decide)]
  exact BitVec.extractLsb'_append_eq_right

theorem data_frameWord : (frameWord first second data).extractLsb' 8 64 = swapBytes data := by
  rw [extract_frameWord _ _ _ (by decide), frameBody]
  exact BitVec.extractLsb'_append_eq_right

/-- Byte `k` of the data is byte `k + 2` of the frame. -/
theorem dataByte_frameWord {k : Nat} (hk : k < 8) :
    (frameWord first second data).extractLsb' (64 - 8 * k) 8 = dataByte data k := by
  rw [extract_frameWord _ _ _ (by omega), frameBody, BitVec.extractLsb'_append_eq_of_add_le (by omega),
    show 64 - 8 * k - 8 = 56 - 8 * k by omega, extract_swapBytes data hk]

/-- The fields of a frame: two bytes, the data bytes least significant first, and the CRC of the ten. -/
theorem frameWord_fields : (frameWord first second data).extractLsb' 80 8 = first ∧
    (frameWord first second data).extractLsb' 72 8 = second ∧
    (∀ k : Nat, k < 8 → (frameWord first second data).extractLsb' (64 - 8 * k) 8 = dataByte data k) ∧
    (frameWord first second data).extractLsb' 0 8 =
      crc8 (bitsOf ((frameWord first second data).extractLsb' 8 80)) :=
  ⟨first_frameWord first second data, second_frameWord first second data,
    fun _ hk => dataByte_frameWord first second data hk, crc_frameWord first second data⟩

end frameWord

/-! ### A frame sent bit by bit (R177, R179; log 8) -/

/-- The 88 bits of a frame, sent one by one, leave what the frame carried whole leaves. -/
theorem shiftBits_frameWord {s : State} (h : s.linkReady) (code sel : Byte) (arg : Bytes8) :
    shiftBits (bitsOf (frameWord code sel arg)) (beginFrame s) = loadFrame code sel arg s := by
  have hout : s.mlc.reply.word <<< 88 = 0 := BitVec.shiftLeft_eq_zero (le_refl 88)
  have htake : (bitsOf (frameWord code sel arg)).take 88 = bitsOf (frameWord code sel arg) :=
    List.take_of_length_le (by simp)
  rw [shiftBits_beginFrame h, midFrame, bitsOf_length, htake, shiftedIn_bitsOf, hout]
  rfl

/-- A frame with its CRC is good (R179), and its fields read back as they were sent. -/
theorem frameGood_loadFrame (code sel : Byte) (arg : Bytes8) (s : State) :
    (loadFrame code sel arg s).mlc.frameGood = true := by
  simp only [Mlc.frameGood, loadFrame, beq_self_eq_true, Bool.true_and, beq_iff_eq]
  exact crc_frameWord code sel arg
theorem frameCode_loadFrame (code sel : Byte) (arg : Bytes8) (s : State) :
    (loadFrame code sel arg s).mlc.frameCode = code := first_frameWord code sel arg
theorem frameSel_loadFrame (code sel : Byte) (arg : Bytes8) (s : State) :
    (loadFrame code sel arg s).mlc.frameSel = sel := second_frameWord code sel arg
theorem frameArg_loadFrame (code sel : Byte) (arg : Bytes8) (s : State) :
    (loadFrame code sel arg s).mlc.frameArg = arg := by
  show swapBytes ((frameWord code sel arg).extractLsb' 8 64) = arg
  rw [data_frameWord, swapBytes_swapBytes]

/-- CS_N rising on a frame in the register does what the row does that carries the frame whole. -/
theorem takeFrame_loadFrame {s : State} (h : s.linkReady) {fits : Byte → Byte → Bool}
    {run : Byte → Byte → Bytes8 → State → State} {code sel : Byte} {arg : Bytes8} (hf : fits code sel = true) :
    takeFrame fits run code sel arg (loadFrame code sel arg s) = takeFrame fits run code sel arg s := by
  have hlow : (loadFrame code sel arg s).pins.csLow = true := rfl
  have hopen : (loadFrame code sel arg s).mlc.frameOpen = true := rfl
  rw [takeFrame_of_ready h hf, takeFrame, hlow, hopen, frameGood_loadFrame, frameCode_loadFrame, frameSel_loadFrame,
    frameArg_loadFrame, hf]
  rfl

/-- The commands that every device state admits whatever the selector, and that no range bounds (R182). -/
theorem admits_unchecked (d : DeviceState) (sel : Byte) :
    admits 0x00#8 sel d = true ∧ admits 0x01#8 sel d = true ∧ admits 0x3F#8 sel d = true := by
  cases d <;> exact ⟨rfl, rfl, rfl⟩

/-- What a link row is: CS_N rising on the frame that it stands for. A command that the device state does not admit is
BAD_STATE before anything else of it is looked at (R181). -/
theorem exec_linkRow {i : Instr} {code sel : Byte} {arg : Bytes8} (h : linkFrame i = some (code, sel, arg))
    (hw : i.wellFormed = true) : ∃ fits run, fits code sel = true ∧
      (∀ s, exec i s = .next (takeFrame fits run code sel arg s)) ∧
      ∀ t : State, code ∈ commandCodes → admits code sel t.esc.device = false →
        run code sel arg t = refuse code .badState t := by
  cases i with
  | badCommand c v a =>
    cases h
    exact ⟨_, _, hw, fun _ => rfl, fun t hc => absurd hc (by simpa [Instr.wellFormed] using hw)⟩
  | nop v a | identify v a | softReset v a =>
    cases h
    refine ⟨_, _, beq_self_eq_true _, fun _ => rfl, fun t _ ha => ?_⟩
    have hadmits := admits_unchecked t.esc.device sel
    simp [ha] at hadmits
  | setArmingWindow v a | setPoisonWord v a | setAlertEnable v a =>
    cases h
    exact ⟨_, _, hw, fun _ => rfl, fun t _ ha => by simp [setSetting, ha]⟩
  | deviceStatus v a | draftClear v a | draftSet v a | draftOmit v a | start v a | stop v a | lockdown v a
  | releaseGroup v a | forceGroup v a | collect v a | collectedPart v a =>
    cases h
    exact ⟨_, _, beq_self_eq_true _, fun _ => rfl, fun t _ ha => checked_of_state ha⟩
  | install v a | retire v a | rearm v a | readEntry v a | collectEntry v a =>
    cases h
    exact ⟨_, _, beq_self_eq_true _, fun _ => rfl, fun t _ ha => checkedIndex_of_state ha⟩
  | _ => cases h

/-- Settles O33: the bits leave the frame in the register, and CS_N rises on it there as on one carried whole. -/
theorem linkFrameBitByBit : Obligations.LinkFrameBitByBit := by
  intro s i code sel arg hi hw hr
  obtain ⟨fits, run, hf, hexec, -⟩ := exec_linkRow hi hw
  rw [shiftBits_frameWord hr, hexec, hexec, takeFrame_loadFrame hr hf]

/-! ### Bad frames (R179, R192; logs 10 and 24) -/

/-- The bits of a frame make it good exactly when there are 88 of them and the last eight are the CRC of the others. -/
theorem frameGood_midFrame (bits : List Bool) (s : State) : (midFrame bits s).mlc.frameGood = true ↔
    bits.length = 88 ∧ byteOf (bits.drop 80) = crc8 (bits.take 80) := by
  simp only [Mlc.frameGood, midFrame, Config.frameBits, Bool.and_eq_true, beq_iff_eq]
  refine and_congr_right fun hlen => ?_
  rw [List.take_of_length_le hlen.le, extract_shiftedIn _ (by omega) (by decide),
    extract_shiftedIn _ (by omega) (by decide), hlen, bitsOf_shiftedIn _ (by simp [hlen]), byteOf_eq,
    List.take_of_length_le (by simp [hlen])]
  rfl

/-- Byte 0 as received is the first eight bits, once there are eight (R179). -/
theorem receivedCode_midFrame (bits : List Bool) (s : State) :
    (midFrame bits s).mlc.receivedCode = if bits.length < 8 then 0 else byteOf (bits.take 8) := by
  show (if bits.length < 8 then _ else _) = _
  split
  · rfl
  · have hlen : (bits.take 88).length = min bits.length 88 := by simp [Nat.min_comm]
    simp only [midFrame, Config.frameBits]
    rw [BitVec.setWidth_ushiftRight_eq_extractLsb, extract_shiftedIn _ (by omega) (by omega), hlen, byteOf_eq,
      show min bits.length 88 - (min bits.length 88 - 8) - 8 = 0 by omega, List.drop_zero, List.take_take]
    rfl

/-- CS_N rising on a frame that is not taken raises the pin alone; on a bad one it leaves a BAD_FRAME reply. -/
theorem riseOnBadFrame_of_closed {s : State} (ho : s.mlc.frameOpen = false) :
    riseOnBadFrame s = { s with pins := { s.pins with csLow := false } } := by
  have hmlc : { s.mlc with frameOpen := false } = s.mlc := by rw [← ho]
  rw [riseOnBadFrame, ho]
  show endFrame s = _
  rw [endFrame, hmlc]
theorem riseOnBadFrame_of_bad {s : State} (ho : s.mlc.frameOpen = true) (hg : s.mlc.frameGood = false) :
    riseOnBadFrame s = endBadFrame s := by
  rw [riseOnBadFrame, ho, hg]
  rfl

theorem takeBadFrame_of_low {s : State} (hc : s.pins.csLow = true) (bits : List Bool) :
    takeBadFrame bits s = riseOnBadFrame s := if_pos hc

/-- A frame carried whole that is not good is not executed (R179). -/
theorem takeBadFrame_of_ready {s : State} (h : s.linkReady) {bits : List Bool}
    (hbad : (midFrame bits s).mlc.frameGood = false) : takeBadFrame bits s = endBadFrame (midFrame bits s) := by
  simp only [takeBadFrame, h.1, shiftBits_beginFrame h, hbad, Bool.and_false, Bool.false_eq_true, if_false]
  exact riseOnBadFrame_of_bad rfl hbad

/-- Settles O32: with the frame carried whole, by the bits of a good frame; with it in the register, case by case. -/
theorem badFrameIsNotExecuted : Obligations.BadFrameIsNotExecuted := by
  refine ⟨fun s bits hr hbits => ?whole, fun s bits hc ho hg => ?bad, fun s bits hc ho => ?notTaken⟩
  case whole =>
    have hbad : (midFrame bits s).mlc.frameGood = false := by
      rw [← Bool.not_eq_true, frameGood_midFrame]
      rintro ⟨hlen, hcrc⟩
      exact hbits.elim (· hlen) (· hcrc)
    refine ⟨_, congrArg Host.Outcome.next (takeBadFrame_of_ready hr hbad), ?same, ?reply⟩
    case same =>
      exact ⟨pins_received_of_ready hr 0 0 0, rfl, rfl, rfl, rfl, rfl, rfl, rfl, rfl, rfl, rfl, rfl, rfl, rfl, rfl⟩
    case reply =>
      show (⟨.badFrame, (midFrame bits s).mlc.receivedCode, 0⟩ : Reply) = _
      rw [receivedCode_midFrame]
  case bad =>
    exact congrArg Host.Outcome.next ((takeBadFrame_of_low hc bits).trans (riseOnBadFrame_of_bad ho hg))
  case notTaken =>
    exact congrArg Host.Outcome.next ((takeBadFrame_of_low hc bits).trans (riseOnBadFrame_of_closed ho))

/-! ### The link's signals and the CRC-8 (R177, R178) -/

theorem crc8_append (bits : List Bool) (b : Bool) : crc8 (bits ++ [b]) =
    if (crc8 bits).msb = b then crc8 bits <<< 1 else (crc8 bits <<< 1) ^^^ 0x07#8 := by
  rw [crc8, List.foldl_append]
  show crcBit (crc8 bits) b = _
  unfold crcBit
  by_cases h : (crc8 bits).msb = b
  · simp [h]
  · simp [h]

/-- Settles O30: the signals by the definitions of the link's registers, the bytes of a reply as those of a frame. -/
theorem linkSignalling : Obligations.LinkSignalling := by
  refine ⟨fun r => ?reply, frameWord_fields, fun n w => ⟨bitsOf_length w, fun k hk => ?bits⟩, ⟨rfl, crc8_append⟩,
    fun s hc => ?falls, fun s => ⟨rfl, fun b bits => ⟨_, _, rfl, rfl, rfl⟩⟩, ?worked, fun s hc hp => ?taken,
    fun s hc hp => ?ignored, fun s b hc ho => ?rising, fun s hc ho => ?falling, fun s hc => ?high,
    fun s hc ho b => ?closed⟩
  case reply =>
    obtain ⟨hstatus, hrest⟩ := frameWord_fields r.status.code r.echo r.data
    refine ⟨hstatus.trans ?_, hrest⟩
    cases r.status <;> rfl
  case bits => rw [List.getElem?_eq_getElem (by rwa [bitsOf_length]), bitsOf_getElem]
  case falls => simp [exec, execFrameStart, hc]
  case worked => decide +kernel
  case taken => simp [exec, execFrameStart, beginFrame, hc, hp]
  case ignored => simp [exec, execFrameStart, beginFrame, hc, hp]
  case rising =>
    refine ⟨(s.mlc.shiftIn b).inReg, by simp [exec, execSckRisingEdge, clockIn, hc, ho, Mlc.shiftIn], fun hlt => ?_⟩
    have hin : (s.mlc.shiftIn b).inReg = (s.mlc.inReg <<< 1) ||| (BitVec.ofBool b).setWidth 88 := if_pos hlt
    rw [hin]
    exact ⟨getLsbD_shift_zero (by decide) _ b, fun j hj => getLsbD_shift_succ (by omega) _ b⟩
  case falling => simp [exec, execSckFallingEdge, clockOut, hc, ho, Mlc.shiftOut]
  case high =>
    refine ⟨by simp [State.miso, hc], ?_, fun b => ?_⟩
    · simp [exec, execSckFallingEdge, clockOut, hc]
    · simp [exec, execSckRisingEdge, clockIn, hc]
  case closed => simp [exec, execSckRisingEdge, clockIn, ho]

/-! ### Refusals (R181, R182) -/

/-- A refused command, in a frame that its row carries whole, changes the link's registers alone. -/
theorem refused_of_ready {s : State} (hr : s.linkReady) {i : Instr} {code sel : Byte} {arg : Bytes8} {st : LinkStatus}
    (hx : exec i s = .next (refuse code st (received code sel arg s))) :
    ∃ t, exec i s = .next t ∧ sameButLink s t ∧ t.mlc.reply = ⟨st, code, 0⟩ :=
  ⟨_, hx, sameButLink_refuse (sameButLink_received hr _ _ _) _ _, rfl⟩

/-- A link row whose frame the device state does not admit is BAD_STATE (R181). -/
theorem exec_of_not_admitted {s : State} (hr : s.linkReady) {i : Instr} {code sel : Byte} {arg : Bytes8}
    (hi : linkFrame i = some (code, sel, arg)) (hw : i.wellFormed = true) (hc : code ∈ commandCodes)
    (ha : admits code sel s.esc.device = false) :
    exec i s = .next (refuse code .badState (received code sel arg s)) := by
  obtain ⟨fits, run, hf, hexec, hrun⟩ := exec_linkRow hi hw
  rw [hexec, takeFrame_of_ready hr hf, hrun _ hc (by rwa [esc_received])]

/-- The states that do not admit a command of the table (R182). -/
theorem admits_eq_false_iff {code : Byte} (hc : code ∈ commandCodes) (sel : Byte) (d : DeviceState) :
    admits code sel d = false ↔
      (code = 0x03#8 ∧ (sel = 1#8 ∨ sel = 2#8) ∧ d ≠ .configure) ∨
      ((code = 0x13#8 ∨ code = 0x14#8 ∨ code = 0x22#8 ∨ code = 0x23#8) ∧ d = .lockdown) ∨
      ((code = 0x15#8 ∨ code = 0x21#8) ∧ d ≠ .supervise) ∨ (code = 0x20#8 ∧ d ≠ .configure) := by
  simp only [commandCodes, List.mem_cons, List.not_mem_nil, or_false] at hc
  rcases hc with rfl | rfl | rfl | rfl | rfl | rfl | rfl | rfl | rfl | rfl | rfl | rfl | rfl | rfl | rfl | rfl | rfl |
    rfl | rfl | rfl <;> cases d <;> simp [admits, or_iff_not_imp_left]

section ranges
variable {s : State} (hr : s.linkReady) {code sel : Byte} (ha : admits code sel s.esc.device = true)
include hr ha

/-- An admitted index command at an index above 63 is BAD_FIELD (R182). -/
theorem takeCommand_of_index (hsel : 63 < sel.toNat) (arg : Bytes8) (run : Bytes8 → Index → State → State) :
    takeCommand code (fun v a => checkedIndex code v (run a)) sel arg s =
      refuse code .badField (received code sel arg s) := by
  rw [takeCommand_of_ready hr, checkedIndex_of_range (by rwa [esc_received]) hsel]

/-- An admitted command whose selector lies above its greatest is BAD_FIELD (R182). -/
theorem takeCommand_of_selector {greatest : Nat} (hsel : greatest < sel.toNat) (arg : Bytes8)
    (run : Byte → State → State) :
    takeCommand code (fun v _ => checked code v (decide (v.toNat ≤ greatest)) (run v)) sel arg s =
      refuse code .badField (received code sel arg s) := by
  rw [takeCommand_of_ready hr, checked_of_range (by rwa [esc_received]) (decide_eq_false (Nat.not_le.mpr hsel))]

end ranges

/-- READ_ENTRY is admitted in every device state, and DEVICE_STATUS too (R182). -/
theorem admits_readEntry (d : DeviceState) (sel : Byte) : admits 0x16#8 sel d = true := by cases d <;> rfl
theorem admits_deviceStatus (d : DeviceState) (sel : Byte) : admits 0x02#8 sel d = true := by cases d <;> rfl

/-- READ_ENTRY of an entry, in a frame that its row carries whole. -/
theorem exec_readEntry {s : State} (hr : s.linkReady) {sel : Byte} {k : Index} (hk : sel.toNat = k.val) (arg : Bytes8) :
    exec (.readEntry sel arg) s = .next (readEntry arg k (received 0x16#8 sel arg s)) :=
  congrArg Host.Outcome.next ((takeCommand_of_ready hr _ _ _ _).trans
    (checkedIndex_of_ok (by rw [esc_received]; exact admits_readEntry _ _) hk))

/-- Settles O34: the checks of R181, which every row makes before its command runs. -/
theorem refusalsByStateAndRange : Obligations.RefusalsByStateAndRange := by
  refine ⟨fun s i code sel arg hi hw hr hc ha => refused_of_ready hr (exec_of_not_admitted hr hi hw hc ha),
    fun code sel d hc => admits_eq_false_iff hc sel d,
    fun s sel arg hr => ⟨?index, ?selector, fun hsel => ?collectedPart, fun hsel harg => ?readEntry⟩⟩
  case index =>
    simp only [List.mem_cons, List.not_mem_nil, or_false]
    rintro i (rfl | rfl | rfl | rfl | rfl) code a hi hsel ha <;> cases hi <;>
      exact refused_of_ready hr (congrArg Host.Outcome.next (takeCommand_of_index hr ha hsel arg _))
  case selector =>
    simp only [List.mem_cons, List.not_mem_nil, or_false]
    rintro i (rfl | rfl | rfl) code a hi hsel ha <;> cases hi <;>
      exact refused_of_ready hr (congrArg Host.Outcome.next (takeCommand_of_selector hr ha hsel arg _))
  case collectedPart =>
    obtain ⟨-, -, ha⟩ := admits_collection s.esc.device sel
    exact refused_of_ready hr (congrArg Host.Outcome.next (takeCommand_of_selector hr ha hsel arg
      fun v t => reply 0x32#8 (collectedPartData t.mlc.buffer v.toNat) t))
  case readEntry =>
    have hx := exec_readEntry hr (k := ⟨sel.toNat, by omega⟩) rfl arg
    rw [readEntry, if_pos harg] at hx
    exact refused_of_ready hr hx

/-! ### BAD_COMMAND, NOP and IDENTIFY (R181 to R183) -/

/-- Settles O35: rows without checks, in frames that they carry whole. -/
theorem plainLinkCommands : Obligations.PlainLinkCommands := by
  intro s code sel arg hr
  refine ⟨rfl, fun hc => congrArg Host.Outcome.next (takeFrame_of_ready hr (by simpa using hc)),
    congrArg Host.Outcome.next (takeCommand_of_ready hr _ _ _ _),
    congrArg Host.Outcome.next (takeCommand_of_ready hr _ _ _ _), sameButLink_received hr _ _ _⟩

/-! ### SET_DEVICE (R187; log 9) -/

/-- Settings 1 and 2 are admitted in CONFIGURE alone, every other selector in every device state (R182, R187). -/
theorem admits_setDevice_configure (sel : Byte) : admits 0x03#8 sel .configure = true := rfl
theorem admits_setDevice_of_ne {sel : Byte} (h1 : sel ≠ 1#8) (h2 : sel ≠ 2#8) (d : DeviceState) :
    admits 0x03#8 sel d = true := by
  cases d <;> simp [admits, h1, h2]
theorem not_admits_setDevice {sel : Byte} (h : sel = 1#8 ∨ sel = 2#8) {d : DeviceState} (hd : d ≠ .configure) :
    admits 0x03#8 sel d = false :=
  (admits_eq_false_iff (by decide) sel d).mpr (.inl ⟨rfl, h, hd⟩)

section setDevice
variable {α : Type} {s : State} (hr : s.linkReady) {k sel : Byte} {value : Bytes8 → Option α} {put : α → State → State}
  {arg : Bytes8}
include hr

/-- A SET_DEVICE frame carried whole: refused for its device state, for a selector of no setting or for a value out of
range, in this order, and otherwise the setting takes the value. -/
theorem takeSetDevice_of_state (ha : admits 0x03#8 k s.esc.device = false) :
    takeSetDevice k value put k arg s = refuse 0x03#8 .badState (received 0x03#8 k arg s) := by
  rw [takeSetDevice_of_ready hr (by simp [setDeviceSelector]), setSetting, esc_received, ha]
  rfl
theorem takeSetDevice_of_no_setting (ha : admits 0x03#8 sel s.esc.device = true) (hs : setDeviceSelector k sel = true)
    (hk : sel ≠ k) : takeSetDevice k value put sel arg s = refuse 0x03#8 .badField (received 0x03#8 sel arg s) := by
  rw [takeSetDevice_of_ready hr hs, setSetting, esc_received, ha]
  simp [hk]
theorem takeSetDevice_of_range (ha : admits 0x03#8 k s.esc.device = true) (hv : value arg = none) :
    takeSetDevice k value put k arg s = refuse 0x03#8 .badField (received 0x03#8 k arg s) := by
  rw [takeSetDevice_of_ready hr (by simp [setDeviceSelector]), setSetting, esc_received, ha]
  simp [hv]
theorem takeSetDevice_of_value (ha : admits 0x03#8 k s.esc.device = true) {v : α} (hv : value arg = some v) :
    takeSetDevice k value put k arg s = reply 0x03#8 0 (put v (received 0x03#8 k arg s)) := by
  rw [takeSetDevice_of_ready hr (by simp [setDeviceSelector]), setSetting, esc_received, ha]
  simp [hv]

end setDevice

/-- The values that the settings take (R187). -/
theorem armingWindow_ofCode_code (w : ArmingWindow) : ArmingWindow.ofCode w.code = some w := by cases w <;> rfl
theorem armingWindow_ofCode_of_gt {n : Nat} (h : 5 < n) : ArmingWindow.ofCode n = none := by
  obtain ⟨m, rfl⟩ := Nat.exists_eq_add_of_le' h
  rfl
theorem poisonOf_of_le {v : Bytes8} (h : v.toNat ≤ 4294967295) : poisonOf v = some (v.setWidth 32) := by
  rw [poisonOf, if_pos h, BitVec.ofNat_toNat]
theorem poisonOf_of_gt {v : Bytes8} (h : 4294967295 < v.toNat) : poisonOf v = none := if_neg (Nat.not_le.mpr h)
theorem enableOf_of_gt {v : Bytes8} (h : 1 < v.toNat) : enableOf v = none := by
  unfold enableOf
  split <;> first | rfl | omega

/-- Settles O37: each row by the device state, the selector and the value of its frame. -/
theorem setDeviceSettings : Obligations.SetDeviceSettings := by
  intro s arg hr refused u
  have hconfigure (hd : s.esc.device = .configure) (sel : Byte) : admits 0x03#8 sel s.esc.device = true := by
    rw [hd]; exact admits_setDevice_configure sel
  have hother (hd : s.esc.device ≠ .configure) {sel : Byte} (h : sel = 1#8 ∨ sel = 2#8) :
      admits 0x03#8 sel s.esc.device = false := not_admits_setDevice h hd
  have halert : admits 0x03#8 3#8 s.esc.device = true := admits_setDevice_of_ne (by decide) (by decide) _
  refine ⟨fun hd => ⟨fun w hw => ?window, fun h => ?windowRange, fun h => ?poison, fun h => ?poisonRange⟩,
    fun hd => ⟨?windowState, ?poisonState⟩, fun h => ?alertOff, fun h => ?alertOn, fun h => ?alertRange,
    fun sel => sameButLink_received hr _ _ _, fun sel h i hi => ?noSetting⟩
  case window =>
    have hv : ArmingWindow.ofCode arg.toNat = some w := by
      rw [← armingWindow_ofCode_code w, hw]
      cases w <;> rfl
    exact congrArg Host.Outcome.next (takeSetDevice_of_value hr (hconfigure hd _) (put := putArmingWindow)
      (value := fun v => ArmingWindow.ofCode v.toNat) hv)
  case windowRange =>
    exact congrArg Host.Outcome.next (takeSetDevice_of_range hr (hconfigure hd _) (armingWindow_ofCode_of_gt h))
  case poison => exact congrArg Host.Outcome.next (takeSetDevice_of_value hr (hconfigure hd _) (poisonOf_of_le h))
  case poisonRange => exact congrArg Host.Outcome.next (takeSetDevice_of_range hr (hconfigure hd _) (poisonOf_of_gt h))
  case windowState => exact congrArg Host.Outcome.next (takeSetDevice_of_state hr (hother hd (.inl rfl)))
  case poisonState => exact congrArg Host.Outcome.next (takeSetDevice_of_state hr (hother hd (.inr rfl)))
  case alertOff => subst h; exact congrArg Host.Outcome.next (takeSetDevice_of_value hr halert (v := false) rfl)
  case alertOn => subst h; exact congrArg Host.Outcome.next (takeSetDevice_of_value hr halert (v := true) rfl)
  case alertRange => exact congrArg Host.Outcome.next (takeSetDevice_of_range hr halert (enableOf_of_gt h))
  case noSetting =>
    have hne {k : Byte} (hk : 0 < k.toNat ∧ k.toNat ≤ 3) : sel ≠ k := by
      rintro rfl
      rcases h with rfl | h
      · exact absurd hk.1 (by decide)
      · omega
    have ha : admits 0x03#8 sel s.esc.device = true :=
      admits_setDevice_of_ne (hne (by decide)) (hne (by decide)) _
    have hs (k : Byte) : setDeviceSelector k sel = true := by
      rcases h with rfl | h <;> simp [setDeviceSelector, *]
    simp only [List.mem_cons, List.not_mem_nil, or_false] at hi
    rcases hi with rfl | rfl | rfl <;>
      exact congrArg Host.Outcome.next (takeSetDevice_of_no_setting hr ha (hs _) (hne (by decide)))

/-! ### Eight numbers in the eight data bytes of a reply (R178) -/

theorem dataByte_of_bytes {a b c d e f g h : Nat} (ha : a < 2 ^ 8) (hb : b < 2 ^ 8) (hc : c < 2 ^ 8) (hd : d < 2 ^ 8)
    (he : e < 2 ^ 8) (hf : f < 2 ^ 8) (hg : g < 2 ^ 8) (hh : h < 2 ^ 8) :
    let x := dataAt 0 a ||| dataAt 1 b ||| dataAt 2 c ||| dataAt 3 d ||| dataAt 4 e ||| dataAt 5 f ||| dataAt 6 g
      ||| dataAt 7 h
    dataByte x 0 = BitVec.ofNat 8 a ∧ dataByte x 1 = BitVec.ofNat 8 b ∧ dataByte x 2 = BitVec.ofNat 8 c ∧
    dataByte x 3 = BitVec.ofNat 8 d ∧ dataByte x 4 = BitVec.ofNat 8 e ∧ dataByte x 5 = BitVec.ofNat 8 f ∧
    dataByte x 6 = BitVec.ofNat 8 g ∧ dataByte x 7 = BitVec.ofNat 8 h := by
  simp (disch := omega) [dataByte_or, dataByte_dataAt]

/-! ### DEVICE_STATUS (R183) -/

/-- The codes of the small enumerations fit a byte. -/
theorem DeviceState.code_lt (d : DeviceState) : d.code < 2 ^ 8 := by cases d <;> decide
theorem LockdownReason.code_lt (r : LockdownReason) : r.code < 2 ^ 8 := by
  cases r <;> simp [LockdownReason.code]
theorem LockdownReason.indexCode_lt (r : LockdownReason) : r.indexCode < 2 ^ 8 := by
  cases r with
  | none | monitor => decide
  | entry k => exact index_lt_byte k
theorem GroupState.code_lt (g : GroupState) : g.code < 2 ^ 8 := by cases g <;> decide
theorem StartCause.code_lt (c : StartCause) : c.code < 2 ^ 8 := by cases c <;> decide
theorem ArmingWindow.code_lt (w : ArmingWindow) : w.code < 2 ^ 8 := by cases w <;> decide

/-- The alert byte of view 0: bit 0 the enable, bit 1 ALERT_N asserted. -/
theorem alertByte_lt (a b : Bool) : boolCode a + 2 * boolCode b < 2 ^ 8 := by cases a <;> cases b <;> decide

/-- View 0, byte by byte. -/
theorem statusView_fields {s : State} (hlist : s.events.attention.length ≤ 64) :
    dataByte (statusView s) 0 = BitVec.ofNat 8 s.esc.device.code ∧
    dataByte (statusView s) 1 = BitVec.ofNat 8 s.esc.reason.code ∧
    dataByte (statusView s) 2 = BitVec.ofNat 8 s.esc.reason.indexCode ∧
    dataByte (statusView s) 3 = BitVec.ofNat 8 s.esc.groupA.state.code ∧
    dataByte (statusView s) 4 = BitVec.ofNat 8 s.esc.groupB.state.code ∧
    dataByte (statusView s) 5 = BitVec.ofNat 8 s.events.attention.length ∧
    dataByte (statusView s) 6 = BitVec.ofNat 8 s.mlc.startCause.code ∧
    dataByte (statusView s) 7 = BitVec.ofNat 8 (boolCode s.mlc.alertEnable + 2 * boolCode s.alertAsserted) :=
  dataByte_of_bytes s.esc.device.code_lt s.esc.reason.code_lt s.esc.reason.indexCode_lt s.esc.groupA.state.code_lt
    s.esc.groupB.state.code_lt (hlist.trans_lt (by decide)) s.mlc.startCause.code_lt (alertByte_lt _ _)

/-- View 1, field by field. -/
theorem settingsView_fields (s : State) :
    dataByte (settingsView s) 0 = BitVec.ofNat 8 s.mlc.armingWindow.code ∧
    (settingsView s).extractLsb' 8 32 = s.mlc.poison ∧
    dataByte (settingsView s) 5 = (if s.mlc.alertEnable then 1#8 else 0#8) ∧
    dataByte (settingsView s) 6 = 0#8 ∧ dataByte (settingsView s) 7 = 0#8 := by
  have hwindow := s.mlc.armingWindow.code_lt
  have hpoison := s.mlc.poison.isLt
  have henable := boolCode_lt s.mlc.alertEnable
  simp (disch := omega) [settingsView, dataByte, BitVec.extractLsb'_or, extract_dataAt_self,
    extract_dataAt_of_disjoint hwindow, extract_dataAt_of_disjoint hpoison, extract_dataAt_of_disjoint henable,
    ofNat_boolCode]

/-- The alert byte: with the enable clear ALERT_N is never asserted, and else while the list is not empty (R171). -/
theorem alertByte_eq (s : State) :
    BitVec.ofNat 8 (boolCode s.mlc.alertEnable + 2 * boolCode s.alertAsserted) =
      if s.mlc.alertEnable then (if s.events.attention = [] then 1#8 else 3#8) else 0#8 := by
  unfold State.alertAsserted
  cases s.mlc.alertEnable with
  | false => rfl
  | true => cases s.events.attention <;> rfl

/-- DEVICE_STATUS of a view that there is, in a frame that its row carries whole. -/
theorem exec_deviceStatus {s : State} (hr : s.linkReady) {sel : Byte} (hsel : sel.toNat ≤ 1) (arg : Bytes8) :
    exec (.deviceStatus sel arg) s = .next (deviceStatus sel (received 0x02#8 sel arg s)) :=
  congrArg Host.Outcome.next ((takeCommand_of_ready hr _ _ _ _).trans
    (checked_of_ok (by rw [esc_received]; exact admits_deviceStatus _ _) (decide_eq_true hsel)))

/-- Settles O36: the fields of each view, and the codes in them. -/
theorem deviceStatusViews : Obligations.DeviceStatusViews := by
  intro s arg hr hlist
  refine ⟨⟨_, statusView s, exec_deviceStatus hr (by decide) arg, ?_, rfl, ?view0⟩,
    ⟨_, settingsView s, exec_deviceStatus hr (by decide) arg, ?_, rfl, ?view1⟩⟩
  case view0 =>
    obtain ⟨hdevice, hreason, hindex, hA, hB, hlength, hcause, halert⟩ := statusView_fields hlist
    refine ⟨hdevice.trans ?_, hreason.trans ?_, hindex.trans ?_, hA.trans ?_, hB.trans ?_, hlength, hcause.trans ?_,
      halert.trans (alertByte_eq s)⟩
    · cases s.esc.device <;> rfl
    · cases s.esc.reason <;> rfl
    · cases s.esc.reason <;> rfl
    · cases s.esc.groupA.state <;> rfl
    · cases s.esc.groupB.state <;> rfl
    · cases s.mlc.startCause <;> rfl
  case view1 =>
    obtain ⟨hwindow, hrest⟩ := settingsView_fields s
    refine ⟨hwindow.trans ?_, hrest⟩
    cases s.mlc.armingWindow <;> rfl
  all_goals exact sameButLink_reply (sameButLink_received hr _ _ _) _ _

/-! ### READ_ENTRY (R188, R189) -/

theorem Format.code_lt (f : Format) : f.code < 2 ^ 8 := by cases f <;> decide
theorem Reaction.code_lt (r : Reaction) : r.code < 2 ^ 8 := by cases r <;> decide
theorem Period.code_lt (p : Period) : p.code < 2 ^ 8 := by cases p <;> decide
theorem ClosedFraction.quarters_lt (c : ClosedFraction) : c.quarters < 2 ^ 8 := by cases c <;> decide
theorem Arming.code_lt (a : Arming) : a.code < 2 ^ 8 := by cases a <;> decide
theorem ViolationAction.code_lt (v : ViolationAction) : v.code < 2 ^ 8 := by cases v <;> decide
theorem answerCode_lt (a : Answer) : answerCode a < 2 ^ 8 := by cases a <;> decide
theorem ReadPolicy.code_lt (p : ReadPolicy) : p.code < 2 ^ 8 := by cases p <;> decide
theorem AlarmMode.code_lt (m : AlarmMode) : m.code < 2 ^ 8 := by cases m <;> decide
theorem Phase.code_lt (p : Phase) : p.code < 2 ^ 8 := by cases p <;> decide
theorem WarnCondition.code_lt (w : WarnCondition) : w.code < 2 ^ 8 := by cases w <;> decide
theorem WindowKind.code_lt (w : WindowKind) : w.code < 2 ^ 8 := by cases w <;> decide

/-- Part 0, field by field. -/
theorem entryPart_basics (e : Entry) (w : Window) (hthreshold : e.defn.threshold < 2 ^ 8) :
    (entryPart e w 0).extractLsb' 0 32 = e.defn.base.setWidth 32 ∧
    dataByte (entryPart e w 0) 4 = BitVec.ofNat 8 e.defn.format.code ∧
    dataByte (entryPart e w 0) 5 = e.defn.writers.setWidth 8 ∧
    dataByte (entryPart e w 0) 6 = BitVec.ofNat 8 e.defn.threshold ∧
    dataByte (entryPart e w 0) 7 = BitVec.ofNat 8 e.defn.reaction.code := by
  have hbase := e.defn.base.isLt
  have hformat := e.defn.format.code_lt
  have hwriters := e.defn.writers.isLt
  have hreaction := e.defn.reaction.code_lt
  simp (disch := omega) [entryPart, dataByte, BitVec.extractLsb'_or, extract_dataAt_self,
    extract_dataAt_of_disjoint hbase, extract_dataAt_of_disjoint hformat, extract_dataAt_of_disjoint hwriters,
    extract_dataAt_of_disjoint hthreshold, extract_dataAt_of_disjoint hreaction]

/-- Part 1, field by field. -/
theorem entryPart_behaviour (e : Entry) (w : Window) (hdwell : e.defn.dwell < 2 ^ 8) :
    dataByte (entryPart e w 1) 0 = BitVec.ofNat 8 e.defn.period.code ∧
    dataByte (entryPart e w 1) 1 = BitVec.ofNat 8 e.defn.closedFraction.quarters ∧
    dataByte (entryPart e w 1) 2 = BitVec.ofNat 8 e.defn.arming.code ∧
    dataByte (entryPart e w 1) 3 = BitVec.ofNat 8 e.defn.violation.code ∧
    dataByte (entryPart e w 1) 4 = BitVec.ofNat 8 (answerCode e.defn.dropAnswer) ∧
    dataByte (entryPart e w 1) 5 = BitVec.ofNat 8 e.defn.readPolicy.code ∧
    dataByte (entryPart e w 1) 6 = BitVec.ofNat 8 e.defn.alarmMode.code ∧
    dataByte (entryPart e w 1) 7 = BitVec.ofNat 8 e.defn.dwell :=
  dataByte_of_bytes e.defn.period.code_lt e.defn.closedFraction.quarters_lt e.defn.arming.code_lt
    e.defn.violation.code_lt (answerCode_lt _) e.defn.readPolicy.code_lt e.defn.alarmMode.code_lt hdwell

/-- The limit presence bits of part 2 as a number, the hard low limit in bit 0. -/
def Definition.limitPresence (d : Definition) : Nat :=
  boolCode d.hardLow.present + 2 * boolCode d.hardHigh.present + 4 * boolCode d.warnLow.present +
    8 * boolCode d.warnHigh.present

/-- Four flags as a number below 16: its bits are the flags. -/
theorem flags_bits (a b c d : Bool) :
    boolCode a + 2 * boolCode b + 4 * boolCode c + 8 * boolCode d < 2 ^ 4 ∧
    (boolCode a + 2 * boolCode b + 4 * boolCode c + 8 * boolCode d).testBit 0 = a ∧
    (boolCode a + 2 * boolCode b + 4 * boolCode c + 8 * boolCode d).testBit 1 = b ∧
    (boolCode a + 2 * boolCode b + 4 * boolCode c + 8 * boolCode d).testBit 2 = c ∧
    (boolCode a + 2 * boolCode b + 4 * boolCode c + 8 * boolCode d).testBit 3 = d := by
  revert a b c d
  decide

theorem entryPart_two (e : Entry) (w : Window) : entryPart e w 2 =
    dataAt 0 e.defn.maxStep ||| dataAt 2 e.defn.classes.toNat ||| dataAt 3 e.defn.alertKinds.toNat
      ||| dataAt 5 e.defn.limitPresence := rfl

/-- A number below 2^v placed at byte `k` has no bit at or above its top. -/
theorem getLsbD_dataAt_of_ge {k v n i : Nat} (hn : n < 2 ^ v) (h : 8 * k + v ≤ i) : (dataAt k n).getLsbD i = false := by
  rw [getLsbD_dataAt, Nat.testBit_lt_two_pow (lt_of_lt_of_le hn (Nat.pow_le_pow_right (by decide) (by omega))),
    Bool.and_false]

/-- Part 2, field by field. -/
theorem entryPart_marks (e : Entry) (w : Window) (hstep : e.defn.maxStep < 2 ^ 16) :
    (entryPart e w 2).extractLsb' 0 16 = BitVec.ofNat 16 e.defn.maxStep ∧
    dataByte (entryPart e w 2) 2 = e.defn.classes.setWidth 8 ∧
    (entryPart e w 2).extractLsb' 24 16 = e.defn.alertKinds ∧
    (entryPart e w 2).getLsbD 40 = e.defn.hardLow.present ∧
    (entryPart e w 2).getLsbD 41 = e.defn.hardHigh.present ∧
    (entryPart e w 2).getLsbD 42 = e.defn.warnLow.present ∧
    (entryPart e w 2).getLsbD 43 = e.defn.warnHigh.present ∧ (entryPart e w 2).extractLsb' 44 20 = 0 := by
  have hclasses := e.defn.classes.isLt
  have hkinds := e.defn.alertKinds.isLt
  obtain ⟨hflags, hhardLow, hhardHigh, hwarnLow, hwarnHigh⟩ := flags_bits e.defn.hardLow.present
    e.defn.hardHigh.present e.defn.warnLow.present e.defn.warnHigh.present
  change e.defn.limitPresence < 2 ^ 4 at hflags
  have hbit {i : Nat} (hi : i < 4) : (entryPart e w 2).getLsbD (40 + i) = e.defn.limitPresence.testBit i := by
    have hplace : (dataAt 5 e.defn.limitPresence).getLsbD (40 + i) = e.defn.limitPresence.testBit i := by
      rw [getLsbD_dataAt]
      simp [show 40 + i < 64 by omega]
    rw [entryPart_two, BitVec.getLsbD_or, BitVec.getLsbD_or, BitVec.getLsbD_or, hplace,
      getLsbD_dataAt_of_ge hstep (by omega), getLsbD_dataAt_of_ge hclasses (by omega),
      getLsbD_dataAt_of_ge hkinds (by omega)]
    rfl
  refine ⟨?_, ?_, ?_, (hbit (i := 0) (by decide)).trans hhardLow, (hbit (i := 1) (by decide)).trans hhardHigh,
    (hbit (i := 2) (by decide)).trans hwarnLow, (hbit (i := 3) (by decide)).trans hwarnHigh, ?_⟩
  all_goals
    simp (disch := omega) [entryPart_two, dataByte, BitVec.extractLsb'_or, extract_dataAt_self,
      extract_dataAt_of_disjoint hstep, extract_dataAt_of_disjoint hclasses, extract_dataAt_of_disjoint hkinds,
      extract_dataAt_of_disjoint hflags]

/-- Parts 8 and 9: the masks. -/
theorem entryPart_masks (e : Entry) (w : Window) :
    ((entryPart e w 8).extractLsb' 0 32 = e.defn.stickyMask ∧ (entryPart e w 8).extractLsb' 32 32 = e.defn.riseMask) ∧
    (entryPart e w 9).extractLsb' 0 32 = e.defn.fallMask ∧ (entryPart e w 9).extractLsb' 32 32 = 0 := by
  have hsticky := e.defn.stickyMask.isLt
  have hrise := e.defn.riseMask.isLt
  have hfall := e.defn.fallMask.isLt
  simp (disch := omega) [entryPart, BitVec.extractLsb'_or, extract_dataAt_self, extract_dataAt_of_disjoint hsticky,
    extract_dataAt_of_disjoint hrise, extract_dataAt_of_disjoint hfall]

/-- The value presence byte: bit 0 a last good value, bit 1 a pending half, and of that half bit 2 which one and bits 4
and 5 its initiator (R189). -/
theorem valuePresence_of_none {e : Entry} (h : e.pendingHalf = none) :
    valuePresence e = boolCode e.lastGood.isSome := by
  rw [valuePresence, h, Nat.add_zero]
theorem valuePresence_of_some {e : Entry} {p : PendingHalf} (h : e.pendingHalf = some p) : valuePresence e =
    boolCode e.lastGood.isSome + (2 + 4 * boolCode (p.half == .high) + 16 * p.initiator.val) := by
  rw [valuePresence, h]
  obtain ⟨half, word, initiator⟩ := p
  cases half <;> rfl

theorem presence_bits_of_none (good : Bool) :
    boolCode good < 2 ^ 8 ∧ (BitVec.ofNat 8 (boolCode good)).getLsbD 0 = good ∧
    (BitVec.ofNat 8 (boolCode good)).getLsbD 1 = false ∧ (BitVec.ofNat 8 (boolCode good)).extractLsb' 1 7 = 0 := by
  revert good
  decide
theorem presence_bits_of_some (good high : Bool) (n : Fin 4) :
    let x := boolCode good + (2 + 4 * boolCode high + 16 * n.val)
    x < 2 ^ 8 ∧ (BitVec.ofNat 8 x).getLsbD 0 = good ∧ (BitVec.ofNat 8 x).getLsbD 1 = true ∧
    (BitVec.ofNat 8 x).getLsbD 2 = high ∧ (BitVec.ofNat 8 x).extractLsb' 4 2 = BitVec.ofNat 2 n.val := by
  revert good high n
  decide

theorem valuePresence_lt (e : Entry) : valuePresence e < 2 ^ 8 := by
  cases h : e.pendingHalf with
  | none => rw [valuePresence_of_none h]; exact (presence_bits_of_none _).1
  | some p => rw [valuePresence_of_some h]; exact (presence_bits_of_some _ _ _).1

/-- The value presence byte, flag by flag. -/
theorem valuePresence_fields (e : Entry) :
    (BitVec.ofNat 8 (valuePresence e)).getLsbD 0 = e.lastGood.isSome ∧
    (BitVec.ofNat 8 (valuePresence e)).getLsbD 1 = e.pendingHalf.isSome ∧
    (∀ p, e.pendingHalf = some p → (BitVec.ofNat 8 (valuePresence e)).getLsbD 2 = (p.half == .high) ∧
      (BitVec.ofNat 8 (valuePresence e)).extractLsb' 4 2 = BitVec.ofNat 2 p.initiator.val) ∧
    (e.pendingHalf = none → (BitVec.ofNat 8 (valuePresence e)).extractLsb' 1 7 = 0) := by
  cases h : e.pendingHalf with
  | none =>
    rw [valuePresence_of_none h]
    obtain ⟨-, hgood, hpending, hrest⟩ := presence_bits_of_none e.lastGood.isSome
    exact ⟨hgood, hpending, fun _ hp => (nomatch hp), fun _ => hrest⟩
  | some p =>
    rw [valuePresence_of_some h]
    obtain ⟨-, hgood, hpending, hhalf, hinitiator⟩ :=
      presence_bits_of_some e.lastGood.isSome (p.half == .high) p.initiator
    exact ⟨hgood, hpending, by rintro _ ⟨rfl⟩; exact ⟨hhalf, hinitiator⟩, fun hp => nomatch hp⟩

/-- A bit, or a field, of one byte of a reply's data. -/
theorem getLsbD_dataByte (d : Bytes8) (k : Nat) {i : Nat} (hi : i < 8) :
    (dataByte d k).getLsbD i = d.getLsbD (8 * k + i) := by
  simp [dataByte, hi]
theorem extract_dataByte (d : Bytes8) (k : Nat) {lo w : Nat} (h : lo + w ≤ 8) :
    (dataByte d k).extractLsb' lo w = d.extractLsb' (8 * k + lo) w := by
  apply BitVec.eq_of_getLsbD_eq
  intro i hi
  rw [BitVec.getLsbD_extractLsb', getLsbD_dataByte d k (by omega), BitVec.getLsbD_extractLsb', Nat.add_assoc]

/-- Part 10, field by field. -/
theorem entryPart_dynamics (e : Entry) (w : Window) (hfault : e.faultCounter < 2 ^ 8)
    (hdwell : e.dwellCounter < 2 ^ 8) :
    let b := entryPart e w 10
    dataByte b 0 = BitVec.ofNat 8 e.state.code ∧ dataByte b 1 = BitVec.ofNat 8 e.phase.code ∧
    dataByte b 2 = BitVec.ofNat 8 e.faultCounter ∧ dataByte b 3 = BitVec.ofNat 8 e.dwellCounter ∧
    dataByte b 4 = BitVec.ofNat 8 e.warn.code ∧ dataByte b 5 = (if e.singleFired then 1#8 else 0#8) ∧
    dataByte b 6 = BitVec.ofNat 8 w.kind.code ∧ dataByte b 7 = BitVec.ofNat 8 (valuePresence e) := by
  rw [← ofNat_boolCode]
  exact dataByte_of_bytes e.state.code_lt e.phase.code_lt hfault hdwell e.warn.code_lt (boolCode_lt _) w.kind.code_lt
    (valuePresence_lt e)

/-- Part 11: one word, the pair as a binary64 encoding, or nothing. -/
theorem entryPart_lastGood (e : Entry) (w : Window) : entryPart e w 11 = match e.lastGood with
    | none => 0
    | some (.word x) => x.setWidth 64
    | some (.pair lo hi) => hi ++ lo := by
  show (match e.lastGood with
    | none => 0
    | some v => v.encoding64) = _
  cases e.lastGood with
  | none => rfl
  | some v =>
    cases v with
    | word x =>
      show _ = x.setWidth 64
      rw [BitVec.setWidth_eq_append (by decide)]
      rfl
    | pair lo hi => rfl

/-- The word of the pending half, 0 without one. -/
def Entry.pendingWord (e : Entry) : Word :=
  match e.pendingHalf with
  | none => 0
  | some p => p.word

theorem entryPart_twelve (e : Entry) (w : Window) :
    entryPart e w 12 = dataAt 0 e.pendingWord.toNat ||| dataAt 4 w.count := by
  unfold entryPart Entry.pendingWord
  cases e.pendingHalf <;> rfl

/-- Part 12, field by field. -/
theorem entryPart_waiting (e : Entry) (w : Window) (hcount : w.count < 2 ^ 16) :
    (entryPart e w 12).extractLsb' 0 32 = e.pendingWord ∧
    (entryPart e w 12).extractLsb' 32 16 = BitVec.ofNat 16 w.count ∧ (entryPart e w 12).extractLsb' 48 16 = 0 := by
  have hword := e.pendingWord.isLt
  simp (disch := omega) [entryPart_twelve, BitVec.extractLsb'_or, extract_dataAt_self,
    extract_dataAt_of_disjoint hword, extract_dataAt_of_disjoint hcount]

/-- No window that goes with its entry counts more than the longest arming window, 5,000 ms (R121, R123). -/
theorem periodMs_le (d : Definition) : d.periodMs ≤ 1000 := by
  unfold Definition.periodMs
  cases d.period <;> decide
theorem count_le_of_windowFits {e : Entry} {w : Window} (h : windowFits e w) : w.count ≤ 5000 := by
  have hstopped : stoppedWindow.count ≤ 5000 := by decide
  have hperiod := periodMs_le e.defn
  unfold windowFits at h
  cases hs : e.state with
  | empty | defined | failed => simp only [hs] at h; rwa [h]
  | armed =>
    simp only [hs] at h
    split at h
    · exact h.2
    · rwa [h]
  | live =>
    simp only [hs] at h
    split at h
    · exact h.2.1.trans (hperiod.trans (by decide))
    · rwa [h]
  | stale =>
    simp only [hs] at h
    exact h.2.2.trans (hperiod.trans (by decide))

/-- Settles O44, part by part; the laws bound the numbers that have no type of their own. -/
theorem readEntryParts : Obligations.ReadEntryParts := by
  intro s k sel part hr hk hpart hrange hcounter hwarn hwindow e d
  obtain ⟨-, -, hdwell, -, hstep, -, hthreshold⟩ := hrange.2 k
  obtain ⟨hfault, -⟩ := hcounter k
  obtain ⟨hdwellCounter, -⟩ := hwarn k
  have hcount := count_le_of_windowFits (hwindow k)
  have hnumber : (BitVec.ofNat 64 part).toNat = part := by
    rw [BitVec.toNat_ofNat, Nat.mod_eq_of_lt (by omega)]
  have hx := exec_readEntry hr hk (BitVec.ofNat 64 part)
  rw [readEntry, hnumber, if_neg (by omega)] at hx
  refine ⟨_, entryPart e (s.window k) part, hx, sameButLink_reply (sameButLink_received hr _ _ _) _ _, rfl,
    fun h => ?basics, fun h => ?behaviour, fun h => ?marks, fun h => ?hardLow, fun h => ?hardHigh, fun h => ?warnLow,
    fun h => ?warnHigh, fun h => ?hysteresis, fun h => ?masks, fun h => ?fallMask, fun h => ?dynamics,
    fun h => ?lastGood, fun h => ?waiting⟩ <;> subst h
  case basics =>
    obtain ⟨hbase, hformat, hwriters, hlimit, hreaction⟩ :=
      entryPart_basics e (s.window k) (hthreshold.trans_lt (by decide))
    refine ⟨hbase, hformat.trans ?_, hwriters, hlimit, hreaction.trans ?_⟩
    · cases d.format <;> rfl
    · cases d.reaction <;> rfl
  case behaviour =>
    obtain ⟨hperiod, hfraction, harming, hviolation, hanswer, hpolicy, hmode, hlimit⟩ :=
      entryPart_behaviour e (s.window k) (hdwell.trans_lt (by decide))
    refine ⟨hperiod.trans ?_, hfraction.trans ?_, harming.trans ?_, hviolation.trans ?_, hanswer.trans ?_,
      hpolicy.trans ?_, hmode.trans ?_, hlimit⟩
    · cases d.period <;> rfl
    · cases d.closedFraction <;> rfl
    · cases d.arming <;> rfl
    · cases d.violation <;> rfl
    · cases d.dropAnswer <;> rfl
    · cases d.readPolicy <;> rfl
    · cases d.alarmMode <;> rfl
  case marks => exact entryPart_marks e (s.window k) (hstep.trans_lt (by decide))
  case hardLow | hardHigh | warnLow | warnHigh | hysteresis => rfl
  case masks => exact (entryPart_masks e (s.window k)).1
  case fallMask => exact (entryPart_masks e (s.window k)).2
  case dynamics =>
    obtain ⟨hstate, hphase, hfaults, hdwells, hcondition, hsingle, hkind, hpresence⟩ :=
      entryPart_dynamics e (s.window k) ((hfault.trans hthreshold).trans_lt (by decide))
        ((hdwellCounter.trans hdwell).trans_lt (by decide))
    obtain ⟨hgood, hpending, hhalf, hnone⟩ := valuePresence_fields e
    rw [← hpresence] at hgood hpending hhalf hnone
    simp only [getLsbD_dataByte, extract_dataByte, Nat.reduceLT, Nat.reduceLeDiff, Nat.reduceAdd, Nat.reduceMul]
      at hgood hpending hhalf hnone
    refine ⟨hstate.trans ?_, hphase.trans ?_, hfaults, hdwells, hcondition.trans ?_, hsingle, hkind.trans ?_, hgood,
      hpending, hhalf, hnone⟩
    · cases e.state <;> rfl
    · cases e.phase <;> rfl
    · cases e.warn <;> rfl
    · cases (s.window k).kind <;> rfl
  case lastGood => exact entryPart_lastGood e (s.window k)
  case waiting => exact entryPart_waiting e (s.window k) (hcount.trans_lt (by decide))

/-! ### The fields of the draft as a table (R184, R185) -/

/-- The numbers of the fields in the order of their identifiers, from 1 on; a limit with its presence. -/
def Definition.numbers (d : Definition) : List (Bool × Nat) :=
  [(true, d.base.toNat), (true, d.format.code), (true, d.writers.toNat), (d.hardLow.present, d.hardLow.bytes.toNat),
    (d.hardHigh.present, d.hardHigh.bytes.toNat), (d.warnLow.present, d.warnLow.bytes.toNat),
    (d.warnHigh.present, d.warnHigh.bytes.toNat), (true, d.hysteresis.toNat), (true, d.dwell),
    (true, d.alarmMode.code), (true, d.classes.toNat), (true, d.maxStep), (true, d.stickyMask.toNat),
    (true, d.riseMask.toNat), (true, d.fallMask.toNat), (true, d.period.code), (true, d.closedFraction.quarters),
    (true, d.arming.code), (true, d.violation.code), (true, answerCode d.dropAnswer), (true, d.readPolicy.code),
    (true, d.threshold), (true, d.reaction.code), (true, d.alertKinds.toNat)]

/-- A field's number by its identifier is the table's, one place before; identifier 0 names none. -/
theorem fieldNumber_eq (d : Definition) (f : Byte) :
    d.fieldNumber f = if f.toNat = 0 then none else d.numbers[f.toNat - 1]? := by
  unfold Definition.fieldNumber
  generalize f.toNat = n
  rcases Nat.lt_or_ge 24 n with hgt | hle
  · have hlen : d.numbers.length = 24 := rfl
    have hnone : d.numbers[n - 1]? = none := List.getElem?_eq_none (by omega)
    rw [if_neg (by omega), hnone]
    split <;> first | rfl | omega
  · interval_cases n <;> rfl

/-- A draft whose table differs in one place has another number in that field, and its own in every other. -/
theorem fieldNumber_of_set {d x : Definition} {f : Byte} {n : Bool × Nat} (hpos : f.toNat ≠ 0) (hle : f.toNat ≤ 24)
    (hx : x.numbers = d.numbers.set (f.toNat - 1) n) :
    x.fieldNumber f = some n ∧ ∀ g, g ≠ f → x.fieldNumber g = d.fieldNumber g := by
  have hlen : d.numbers.length = 24 := rfl
  refine ⟨?_, fun g hg => ?_⟩
  · rw [fieldNumber_eq, if_neg hpos, hx, List.getElem?_set_self (by omega)]
  · rw [fieldNumber_eq, fieldNumber_eq]
    split
    · rfl
    · have hne : g.toNat ≠ f.toNat := fun h => hg (BitVec.eq_of_toNat_eq h)
      rw [hx, List.getElem?_set_ne (by omega)]

/-! ### The codes of the enumerated fields (R184) -/

/-- The codes 0 to `greatest` stand for the values of an enumeration, and no other code does. -/
def codesTo {α : Type} (code : α → Nat) (ofCode : Nat → Option α) (greatest : Nat) : Prop :=
  (∀ n ≤ greatest, (ofCode n).map code = some n) ∧ ∀ n, ofCode (n + (greatest + 1)) = none

theorem codesTo_format : codesTo Format.code Format.ofCode 5 := ⟨by decide, fun _ => rfl⟩
theorem codesTo_alarmMode : codesTo AlarmMode.code AlarmMode.ofCode 2 := ⟨by decide, fun _ => rfl⟩
theorem codesTo_period : codesTo Period.code Period.ofCode 10 := ⟨by decide, fun _ => rfl⟩
theorem codesTo_closedFraction : codesTo ClosedFraction.quarters ClosedFraction.ofCode 3 := ⟨by decide, fun _ => rfl⟩
theorem codesTo_arming : codesTo Arming.code Arming.ofCode 1 := ⟨by decide, fun _ => rfl⟩
theorem codesTo_violation : codesTo ViolationAction.code ViolationAction.ofCode 2 := ⟨by decide, fun _ => rfl⟩
theorem codesTo_answer : codesTo answerCode answerOfCode 1 := ⟨by decide, fun _ => rfl⟩
theorem codesTo_readPolicy : codesTo ReadPolicy.code ReadPolicy.ofCode 2 := ⟨by decide, fun _ => rfl⟩
theorem codesTo_reaction : codesTo Reaction.code Reaction.ofCode 4 := ⟨by decide, fun _ => rfl⟩

/-! ### DRAFT_SET and DRAFT_OMIT of one field (R184, R185) -/

/-- DRAFT_SET of field `f` takes the numbers from `lo` to `hi`, writes the one sent in the field's place of the table,
and refuses every other. -/
def setsNumber (d : Definition) (f : Byte) (v : Bytes8) (lo hi : Nat) : Prop :=
  (lo ≤ v.toNat → v.toNat ≤ hi →
    ∃ x, d.setField f v = some x ∧ x.numbers = d.numbers.set (f.toNat - 1) (true, v.toNat)) ∧
  (¬ (lo ≤ v.toNat ∧ v.toNat ≤ hi) → d.setField f v = none)

section setsNumber
variable {d : Definition} {f : Byte} {v : Bytes8} {lo hi : Nat}

/-- The three kinds of fields: a number with its range, eight bytes as sent, and a code. -/
theorem setsNumber_of_range {p : Prop} [Decidable p] {x : Definition} {n : Nat}
    (hset : d.setField f v = if p then some x else none) (hp : p ↔ lo ≤ v.toNat ∧ v.toNat ≤ hi)
    (hx : x.numbers = d.numbers.set (f.toNat - 1) (true, n)) (hn : v.toNat ≤ hi → n = v.toNat) :
    setsNumber d f v lo hi :=
  ⟨fun hlo hhi => ⟨x, by rw [hset, if_pos (hp.mpr ⟨hlo, hhi⟩)], by rw [hx, hn hhi]⟩,
    fun h => by rw [hset, if_neg (mt hp.mp h)]⟩
theorem setsNumber_of_bytes {x : Definition} (hset : d.setField f v = some x)
    (hx : x.numbers = d.numbers.set (f.toNat - 1) (true, v.toNat)) : setsNumber d f v 0 (2 ^ 64 - 1) :=
  ⟨fun _ _ => ⟨x, hset, hx⟩, fun h => absurd ⟨Nat.zero_le _, Nat.le_sub_one_of_lt v.isLt⟩ h⟩
theorem setsNumber_of_code {α : Type} {code : α → Nat} {ofCode : Nat → Option α} (hcodes : codesTo code ofCode hi)
    {put : α → Definition} (hset : d.setField f v = (ofCode v.toNat).map put)
    (hput : ∀ a, (put a).numbers = d.numbers.set (f.toNat - 1) (true, code a)) : setsNumber d f v 0 hi := by
  obtain ⟨hsome, hnone⟩ := hcodes
  refine ⟨fun _ hhi => ?_, fun h => ?_⟩
  · obtain ⟨a, ha, hcode⟩ := Option.map_eq_some_iff.mp (hsome _ hhi)
    exact ⟨put a, by rw [hset, ha]; rfl, by rw [hput, hcode]⟩
  · obtain ⟨n, hn⟩ := Nat.exists_eq_add_of_le' (show hi + 1 ≤ v.toNat by omega)
    rw [hset, hn, hnone]
    rfl

end setsNumber

/-- A number that its field has room for is kept whole. -/
theorem toNat_ofNat_of_le {w n hi : Nat} (hroom : hi < 2 ^ w) (h : n ≤ hi) : (BitVec.ofNat w n).toNat = n := by
  rw [BitVec.toNat_ofNat, Nat.mod_eq_of_lt (h.trans_lt hroom)]

/-- DRAFT_SET of every field of the table of R184. -/
theorem setsNumber_of_mem {f : Byte} {lo hi : Nat} (hm : (f, lo, hi) ∈ fieldRanges) (d : Definition) (v : Bytes8) :
    setsNumber d f v lo hi := by
  have hfrom (n : Nat) : v.toNat ≤ n ↔ 0 ≤ v.toNat ∧ v.toNat ≤ n := (and_iff_right (Nat.zero_le _)).symm
  simp only [fieldRanges, List.mem_cons, List.not_mem_nil, or_false, Prod.mk.injEq] at hm
  rcases hm with h | h | h | h | h | h | h | h | h | h | h | h | h | h | h | h | h | h | h | h | h | h | h | h <;>
    obtain ⟨rfl, rfl, rfl⟩ := h
  · exact setsNumber_of_range rfl (hfrom _) rfl (toNat_ofNat_of_le (by decide))
  · exact setsNumber_of_code codesTo_format rfl fun _ => rfl
  · exact setsNumber_of_range rfl Iff.rfl rfl (toNat_ofNat_of_le (by decide))
  · exact setsNumber_of_bytes rfl rfl
  · exact setsNumber_of_bytes rfl rfl
  · exact setsNumber_of_bytes rfl rfl
  · exact setsNumber_of_bytes rfl rfl
  · exact setsNumber_of_bytes rfl rfl
  · exact setsNumber_of_range rfl Iff.rfl rfl fun _ => rfl
  · exact setsNumber_of_code codesTo_alarmMode rfl fun _ => rfl
  · exact setsNumber_of_range rfl (hfrom _) rfl (toNat_ofNat_of_le (by decide))
  · exact setsNumber_of_range rfl Iff.rfl rfl fun _ => rfl
  · exact setsNumber_of_range rfl (hfrom _) rfl (toNat_ofNat_of_le (by decide))
  · exact setsNumber_of_range rfl (hfrom _) rfl (toNat_ofNat_of_le (by decide))
  · exact setsNumber_of_range rfl (hfrom _) rfl (toNat_ofNat_of_le (by decide))
  · exact setsNumber_of_code codesTo_period rfl fun _ => rfl
  · exact setsNumber_of_code codesTo_closedFraction rfl fun _ => rfl
  · exact setsNumber_of_code codesTo_arming rfl fun _ => rfl
  · exact setsNumber_of_code codesTo_violation rfl fun _ => rfl
  · exact setsNumber_of_code codesTo_answer rfl fun _ => rfl
  · exact setsNumber_of_code codesTo_readPolicy rfl fun _ => rfl
  · exact setsNumber_of_range rfl Iff.rfl rfl fun _ => rfl
  · exact setsNumber_of_code codesTo_reaction rfl fun _ => rfl
  · exact setsNumber_of_range rfl (hfrom _) rfl (toNat_ofNat_of_le (by decide))

/-- The identifiers of the table are 1 to 24. -/
theorem mem_identifiers_iff (f : Byte) : f ∈ fieldRanges.map Prod.fst ↔ f.toNat ≠ 0 ∧ f.toNat ≤ 24 := by
  revert f
  decide

/-- DRAFT_SET of an identifier that is not in the table is refused. -/
theorem setField_of_not_mem {f : Byte} (h : f ∉ fieldRanges.map Prod.fst) (d : Definition) (v : Bytes8) :
    d.setField f v = none := by
  rw [mem_identifiers_iff] at h
  unfold Definition.setField
  split <;> first | rfl | omega

/-- DRAFT_SET accepts this number for this field (R184). -/
def acceptsField (f : Byte) (v : Bytes8) : Prop := ∃ lo hi, (f, lo, hi) ∈ fieldRanges ∧ lo ≤ v.toNat ∧ v.toNat ≤ hi

theorem setField_of_accepted {f : Byte} {v : Bytes8} (h : acceptsField f v) (d : Definition) :
    ∃ x, d.setField f v = some x ∧ x.fieldNumber f = some (true, v.toNat) ∧
      ∀ g, g ≠ f → x.fieldNumber g = d.fieldNumber g := by
  obtain ⟨lo, hi, hm, hlo, hhi⟩ := h
  obtain ⟨x, hset, hx⟩ := (setsNumber_of_mem hm d v).1 hlo hhi
  obtain ⟨hpos, hle⟩ := (mem_identifiers_iff f).mp (List.mem_map_of_mem hm)
  exact ⟨x, hset, fieldNumber_of_set hpos hle hx⟩
theorem setField_of_not_accepted {f : Byte} {v : Bytes8} (h : ¬ acceptsField f v) (d : Definition) :
    d.setField f v = none := by
  by_cases hf : f ∈ fieldRanges.map Prod.fst
  · obtain ⟨⟨_, lo, hi⟩, hm, rfl⟩ := List.mem_map.mp hf
    exact (setsNumber_of_mem hm d v).2 fun hrange => h ⟨lo, hi, hm, hrange⟩
  · exact setField_of_not_mem hf d v

/-- The identifiers of the four limits (R185). -/
def namesLimit (f : Byte) : Prop := f = 4#8 ∨ f = 5#8 ∨ f = 6#8 ∨ f = 7#8

theorem omitField_of_limit {f : Byte} (h : namesLimit f) (d : Definition) :
    ∃ x, d.omitField f = some x ∧ x.fieldNumber f = (d.fieldNumber f).map (fun p => (false, p.2)) ∧
      ∀ g, g ≠ f → x.fieldNumber g = d.fieldNumber g := by
  have hplace : ∃ x n, d.omitField f = some x ∧ d.fieldNumber f = some n ∧ f.toNat ≠ 0 ∧ f.toNat ≤ 24 ∧
      x.numbers = d.numbers.set (f.toNat - 1) (false, n.2) := by
    rcases h with rfl | rfl | rfl | rfl <;> exact ⟨_, _, rfl, rfl, by decide, by decide, rfl⟩
  obtain ⟨x, n, homit, hn, hpos, hle, hx⟩ := hplace
  obtain ⟨hself, hother⟩ := fieldNumber_of_set hpos hle hx
  exact ⟨x, homit, by rw [hself, hn]; rfl, hother⟩
theorem omitField_of_not_limit {f : Byte} (h : ¬ namesLimit f) (d : Definition) : d.omitField f = none := by
  simp only [namesLimit, ← BitVec.toNat_inj, BitVec.toNat_ofNat] at h
  unfold Definition.omitField
  split <;> first | rfl | omega

/-! ### The draft commands (R184, R185) -/

/-- The draft commands are admitted in every device state (R182). -/
theorem admits_draft (d : DeviceState) (sel : Byte) :
    admits 0x10#8 sel d = true ∧ admits 0x11#8 sel d = true ∧ admits 0x12#8 sel d = true := by
  cases d <;> exact ⟨rfl, rfl, rfl⟩

section draft
variable {s : State} (hr : s.linkReady) (sel : Byte) (arg : Bytes8)
include hr

/-- The draft commands, in frames that their rows carry whole. -/
theorem exec_draftClear : exec (.draftClear sel arg) s =
    .next (changeDraft 0x10#8 (some draftDefaults) (received 0x10#8 sel arg s)) := by
  obtain ⟨hclear, -, -⟩ := admits_draft s.esc.device sel
  exact congrArg Host.Outcome.next (takeChecked_of_ready hr hclear arg draftClear)
theorem exec_draftSet : exec (.draftSet sel arg) s =
    .next (changeDraft 0x11#8 (s.mlc.draft.setField sel arg) (received 0x11#8 sel arg s)) := by
  obtain ⟨-, hset, -⟩ := admits_draft s.esc.device sel
  exact congrArg Host.Outcome.next ((takeCommand_of_ready hr _ _ _ _).trans
    (checked_of_ok (by rwa [esc_received]) rfl))
theorem exec_draftOmit : exec (.draftOmit sel arg) s =
    .next (changeDraft 0x12#8 (s.mlc.draft.omitField sel) (received 0x12#8 sel arg s)) := by
  obtain ⟨-, -, homit⟩ := admits_draft s.esc.device sel
  exact congrArg Host.Outcome.next ((takeCommand_of_ready hr _ _ _ _).trans
    (checked_of_ok (by rwa [esc_received]) rfl))

/-- Apart from the draft, a draft command changes the link's registers alone. -/
theorem sameButLink_changeDraft (code : Byte) (d : Option Definition) :
    let t := changeDraft code d (received code sel arg s)
    sameButLink s { t with mlc := { t.mlc with draft := s.mlc.draft } } := by
  have hpins := pins_received_of_ready hr code sel arg
  cases d <;> exact ⟨hpins, rfl, rfl, rfl, rfl, rfl, rfl, rfl, rfl, rfl, rfl, rfl, rfl, rfl, rfl⟩

end draft

/-- Settles O38: DRAFT_SET and DRAFT_OMIT change one place of the table of the draft's numbers. -/
theorem draftCommands : Obligations.DraftCommands := by
  intro s sel arg hr
  refine ⟨⟨_, exec_draftClear hr sel arg, rfl, rfl, sameButLink_changeDraft hr _ _ _ _⟩,
    ⟨_, exec_draftSet hr sel arg, sameButLink_changeDraft hr _ _ _ _, fun h => ?accepted, fun h => ?refused⟩,
    ⟨_, exec_draftOmit hr sel arg, sameButLink_changeDraft hr _ _ _ _, fun h => ?limit, fun h => ?noLimit⟩⟩
  case accepted =>
    obtain ⟨x, hset, hself, hother⟩ := setField_of_accepted h s.mlc.draft
    rw [hset]
    exact ⟨rfl, hself, hother⟩
  case refused =>
    rw [setField_of_not_accepted h]
    exact ⟨rfl, rfl⟩
  case limit =>
    obtain ⟨x, homit, hself, hother⟩ := omitField_of_limit h s.mlc.draft
    rw [homit]
    exact ⟨rfl, hself, hother⟩
  case noLimit =>
    rw [omitField_of_not_limit h]
    exact ⟨rfl, rfl⟩

end Sys2Proof.Machine

/-! PROOF. The reset pin PORST_N: the rows that move it, and the power-on values that every block holds while it is
asserted (R193). -/
namespace Sys2Proof.Machine

/-! ### The operations move no pin -/

@[simp] theorem pins_acceptAccess (s : State) : (acceptAccess s).pins = s.pins := by unfold acceptAccess; split <;> rfl
@[simp] theorem pins_takeAnswer (tag : SlotNo) (st : Answer) (d : Word) (s : State) :
    (takeAnswer tag st d s).pins = s.pins := by
  unfold takeAnswer
  split <;> rfl
@[simp] theorem pins_takeResponse (s : State) : (takeResponse s).pins = s.pins := by
  unfold takeResponse
  split
  · rfl
  · split <;> rfl
@[simp] theorem pins_openPhase (k : Index) (s : State) : (openPhase k s).pins = s.pins := rfl

/-- An event moves no pin that it does not move when it comes. -/
theorem pins_onlyIf {c : Bool} {f : State → State} {s : State} (h : (f s).pins = s.pins) :
    (onlyIf c f s).pins = s.pins :=
  Keeps.onlyIf (P := fun t => t.pins = s.pins) c rfl fun _ => h

theorem pins_takeDue (k : Index) (s : State) : (takeDue k s).pins = s.pins := by
  unfold takeDue
  split
  · rfl
  · exact pins_onlyIf (pins_lateExpiry k s)

/-- Time moves no pin (R120, R122). -/
theorem pins_ticks (n : Nat) (s : State) : (ticks n s).pins = s.pins :=
  ticks_preserves (P := fun t => t.pins = s.pins) (fun k t h => (pins_takeDue k t).trans h)
    (fun t _ h => (pins_onlyIf (pins_mapWindows t _)).trans h) n s rfl

/-- The checks of R181 move no pin. -/
theorem pins_checked {code sel : Byte} {inRange : Bool} {run : State → State} {s : State}
    (hr : (run s).pins = s.pins) : (checked code sel inRange run s).pins = s.pins := by
  rcases checked_cases code sel inRange run s with ⟨st, e⟩ | ⟨-, e⟩ <;> rw [e]
  · rfl
  · exact hr
theorem pins_checkedIndex {code sel : Byte} {run : Index → State → State} {s : State}
    (hr : ∀ k, (run k s).pins = s.pins) : (checkedIndex code sel run s).pins = s.pins := by
  rcases checkedIndex_cases code sel run s with ⟨st, e⟩ | ⟨-, k, e⟩ <;> rw [e]
  · rfl
  · exact hr k

/-! The commands of the link, once their frames are received. -/

theorem pins_setSetting {α : Type} {k : Byte} {value : Bytes8 → Option α} {put : α → State → State}
    {sel : Byte} {arg : Bytes8} {s : State} (hput : ∀ x, (put x s).pins = s.pins) :
    (setSetting k value put sel arg s).pins = s.pins := by
  unfold setSetting
  split
  · rfl
  · split
    · rfl
    · split
      · rfl
      · exact hput _
theorem pins_changeDraft (code : Byte) (d : Option Definition) (s : State) :
    (changeDraft code d s).pins = s.pins := by
  cases d <;> rfl
theorem pins_installDraft (k : Index) (s : State) : (installDraft k s).pins = s.pins := by
  unfold installDraft
  split <;> rfl
theorem pins_install (k : Index) (s : State) : (install k s).pins = s.pins := by
  unfold install
  split_ifs
  · rfl
  · rfl
  · rfl
  · exact pins_installDraft k s
theorem pins_retire (k : Index) (s : State) : (retire k s).pins = s.pins := by
  unfold retire
  split <;> rfl
theorem pins_rearmEntry (k : Index) (s : State) : (rearmEntry k s).pins = s.pins := by
  unfold rearmEntry
  dsimp only
  split <;> rfl
theorem pins_rearm (k : Index) (s : State) : (rearm k s).pins = s.pins := by
  unfold rearm
  split
  · rfl
  · rfl
  all_goals exact pins_rearmEntry k s
theorem pins_readEntry (part : Bytes8) (k : Index) (s : State) : (readEntry part k s).pins = s.pins := by
  unfold readEntry
  split <;> rfl
theorem pins_stop (s : State) : (stop s).pins = s.pins := by
  unfold stop
  split
  · rfl
  · rw [pins_reply, pins_stopSupervision]
theorem pins_releaseGroup (sel : Byte) (s : State) : (releaseGroup sel s).pins = s.pins := by
  unfold releaseGroup
  split
  · exact pins_setGroupState s sel _
  · rfl
  · rfl
theorem pins_forceGroup (sel : Byte) (s : State) : (forceGroup sel s).pins = s.pins := by
  unfold forceGroup
  split
  · exact pins_setGroupState s sel _
  · rfl
  · rfl
theorem pins_collectHead (s : State) : (collectHead s).pins = s.pins := by
  unfold collectHead
  split <;> rfl
theorem pins_collectNamed (k : Index) (s : State) : (collectNamed k s).pins = s.pins := by
  unfold collectNamed
  split <;> rfl

/-! ### The operations that move CS_N or the request offered leave PORST_N -/

theorem porst_acceptOrHold (o : Offer) (s : State) : (acceptOrHold o s).pins.porst = s.pins.porst := by
  unfold acceptOrHold
  split
  · rw [pins_acceptOffer]
  · rfl
theorem porst_offer (o : Offer) (s : State) : (offer o s).pins.porst = s.pins.porst := by
  unfold offer
  split
  · exact porst_acceptOrHold o s
  · rename_i held _
    split
    · exact porst_acceptOrHold o s
    · split
      · rw [porst_acceptOrHold, pins_acceptOffer]
      · rfl
theorem porst_acceptHeldOffer (s : State) : (acceptHeldOffer s).pins.porst = s.pins.porst := by
  unfold acceptHeldOffer
  split
  · rfl
  · exact porst_acceptOrHold _ s

theorem porst_beginFrame (s : State) : (beginFrame s).pins.porst = s.pins.porst := by
  unfold beginFrame
  split <;> rfl
theorem pins_clockIn (b : Bool) (s : State) : (clockIn b s).pins = s.pins := by
  unfold clockIn
  split <;> rfl
theorem pins_clockOut (s : State) : (clockOut s).pins = s.pins := by
  unfold clockOut
  split_ifs <;> rfl
theorem pins_shiftBits (bits : List Bool) (s : State) : (shiftBits bits s).pins = s.pins := by
  unfold shiftBits
  induction bits generalizing s with
  | nil => rfl
  | cons b bits ih => exact (ih _).trans ((pins_clockOut _).trans (pins_clockIn b s))
theorem porst_riseOnBadFrame (s : State) : (riseOnBadFrame s).pins.porst = s.pins.porst := by
  unfold riseOnBadFrame
  split_ifs <;> rfl
theorem porst_takeBadFrame (bits : List Bool) (s : State) : (takeBadFrame bits s).pins.porst = s.pins.porst := by
  unfold takeBadFrame
  split
  · exact porst_riseOnBadFrame s
  · dsimp only
    split
    · rfl
    · rw [porst_riseOnBadFrame, pins_shiftBits, porst_beginFrame]

theorem porst_onlyIf {c : Bool} {f : State → State} {s : State} (h : (f s).pins.porst = s.pins.porst) :
    (onlyIf c f s).pins.porst = s.pins.porst :=
  Keeps.onlyIf (P := fun t => t.pins.porst = s.pins.porst) c rfl fun _ => h

/-- A frame moves CS_N alone, when its command moves no pin. -/
theorem porst_takeFrame {fits : Byte → Byte → Bool} {run : Byte → Byte → Bytes8 → State → State}
    {code sel : Byte} {arg : Bytes8} {s : State} (hr : ∀ c v a t, (run c v a t).pins = t.pins) :
    (takeFrame fits run code sel arg s).pins.porst = s.pins.porst := by
  rcases takeFrame_cases fits run code sel arg s with e | e | e | ⟨c, v, a, m, -, -, -, -, e⟩ <;> rw [e]
  · rfl
  · rfl
  · rw [hr]
theorem porst_takeCommand {code sel : Byte} {arg : Bytes8} {run : Byte → Bytes8 → State → State} {s : State}
    (hr : ∀ v a t, (run v a t).pins = t.pins) : (takeCommand code run sel arg s).pins.porst = s.pins.porst :=
  porst_takeFrame fun _ => hr
theorem porst_takeSetDevice {α : Type} {k sel : Byte} {value : Bytes8 → Option α} {put : α → State → State}
    {arg : Bytes8} {s : State} (hput : ∀ x t, (put x t).pins = t.pins) :
    (takeSetDevice k value put sel arg s).pins.porst = s.pins.porst :=
  porst_takeFrame fun _ _ _ t => pins_setSetting fun x => hput x t

/-- Only POWER_ON_RESET and PORST_N_RELEASE move PORST_N (R46, R193). -/
theorem porst_exec {i : Instr} {s t : State} (hassert : i ≠ .powerOnReset) (hrelease : i ≠ .porstNRelease)
    (hx : exec i s = .next t) : t.pins.porst = s.pins.porst := by
  have next : ∀ {u : State}, (.next u : Result) = .next t → u.pins.porst = s.pins.porst →
      t.pins.porst = s.pins.porst := fun e hu => by cases e; exact hu
  have same : ∀ {u : State}, (.next u : Result) = .next t → u.pins = s.pins → t.pins.porst = s.pins.porst :=
    fun e hu => next e (congrArg Pins.porst hu)
  cases i with
  | writeArrival ini tag addr lanes data => exact next hx (porst_offer _ s)
  | readArrival ini tag addr => exact next hx (porst_offer _ s)
  | slotIssue => exact same hx (pins_onlyIf (pins_issueOldest s))
  | memoryAccept => exact same hx (pins_onlyIf (pins_acceptAccess s))
  | memoryAnswer tag st d => exact same hx (pins_onlyIf (pins_takeAnswer tag st d s))
  | responseTaken => exact same hx (pins_onlyIf (pins_takeResponse s))
  | processorSideReset => exact next hx (porst_onlyIf (by simp))
  | prstNRelease => exact next hx rfl
  | powerOnReset => exact absurd rfl hassert
  | porstNRelease => exact absurd rfl hrelease
  | tick n => exact same hx (pins_onlyIf (pins_ticks _ _))
  | armingExpiry k => exact same hx (pins_onlyIf (pins_lateExpiry k s))
  | closedWindowEnd k => exact same hx (pins_onlyIf (pins_openPhase k s))
  | openWindowExpiry k => exact same hx (pins_onlyIf (pins_lateExpiry k s))
  | stalePeriodExpiry k => exact same hx (pins_onlyIf (pins_lateExpiry k s))
  | frameStart => exact next hx (porst_onlyIf (porst_beginFrame s))
  | badFrame bits => exact next hx (porst_takeBadFrame bits s)
  | badCommand c v a => exact next hx (porst_takeFrame fun _ _ _ _ => rfl)
  | nop v a => exact next hx (porst_takeCommand fun _ _ _ => rfl)
  | identify v a => exact next hx (porst_takeCommand fun _ _ _ => rfl)
  | deviceStatus v a => exact next hx (porst_takeCommand fun _ _ _ => pins_checked rfl)
  | setArmingWindow v a => exact next hx (porst_takeSetDevice fun _ _ => rfl)
  | setPoisonWord v a => exact next hx (porst_takeSetDevice fun _ _ => rfl)
  | setAlertEnable v a => exact next hx (porst_takeSetDevice fun _ _ => rfl)
  | draftClear v a => exact next hx (porst_takeCommand fun _ _ _ => pins_checked rfl)
  | draftSet v a => exact next hx (porst_takeCommand fun _ _ _ => pins_checked (pins_changeDraft _ _ _))
  | draftOmit v a => exact next hx (porst_takeCommand fun _ _ _ => pins_checked (pins_changeDraft _ _ _))
  | install v a => exact next hx (porst_takeCommand fun _ _ t => pins_checkedIndex fun k => pins_install k t)
  | retire v a => exact next hx (porst_takeCommand fun _ _ t => pins_checkedIndex fun k => pins_retire k t)
  | rearm v a => exact next hx (porst_takeCommand fun _ _ t => pins_checkedIndex fun k => pins_rearm k t)
  | readEntry v a => exact next hx (porst_takeCommand fun _ p t => pins_checkedIndex fun k => pins_readEntry p k t)
  | start v a => exact next hx (porst_takeCommand fun _ _ _ => pins_checked (by rw [pins_reply, pins_startSupervision]))
  | stop v a => exact next hx (porst_takeCommand fun _ _ t => pins_checked (pins_stop t))
  | lockdown v a => exact next hx (porst_takeCommand fun _ _ _ => pins_checked (by rw [pins_reply, pins_enterLockdown]))
  | releaseGroup v a => exact next hx (porst_takeCommand fun g _ t => pins_checked (pins_releaseGroup g t))
  | forceGroup v a => exact next hx (porst_takeCommand fun g _ t => pins_checked (pins_forceGroup g t))
  | collect v a => exact next hx (porst_takeCommand fun _ _ t => pins_checked (pins_collectHead t))
  | collectEntry v a => exact next hx (porst_takeCommand fun _ _ t => pins_checkedIndex fun k => pins_collectNamed k t)
  | collectedPart v a => exact next hx (porst_takeCommand fun _ _ _ => pins_checked rfl)
  | softReset v a => exact next hx (porst_takeCommand fun _ _ _ => rfl)
  | sckRisingEdge b => exact same hx (pins_clockIn b s)
  | sckFallingEdge => exact same hx (pins_clockOut s)

/-! ### Nothing but the pins moves while PORST_N is asserted (R193) -/

/-- PORST_N is asserted, and every block holds its power-on values. -/
structure State.heldAtPowerOn (s : State) : Prop where
  asserted : s.pins.porst = true
  values : s = powerOnValues s

/-- Nothing but pins differs. -/
def onlyPinsMove (s t : State) : Prop := t = { s with pins := t.pins }

theorem onlyPinsMove_refl (s : State) : onlyPinsMove s s := rfl

/-- The power-on values say nothing of the pins. -/
theorem onlyPinsMove.powerOnValues {s t : State} (h : onlyPinsMove s t) (hs : s = powerOnValues s) :
    t = Machine.powerOnValues t :=
  calc t = { s with pins := t.pins } := h
    _ = { Machine.powerOnValues s with pins := t.pins } := by rw [← hs]
    _ = Machine.powerOnValues { s with pins := t.pins } := rfl
    _ = Machine.powerOnValues t := by rw [← h]

namespace State.heldAtPowerOn
variable {s : State} (h : s.heldAtPowerOn)
include h

theorem transit_eq : s.transit = ⟨[], false⟩ := congrArg State.transit h.values
theorem slots_eq : s.transit.slots = [] := congrArg Transit.slots h.transit_eq
theorem msi_eq : s.msi = ⟨[], []⟩ := congrArg State.msi h.values
theorem not_supervise : s.esc.device ≠ .supervise := by
  have hesc : s.esc = resetEscalation := congrArg State.esc h.values
  rw [hesc]
  exact DeviceState.noConfusion
theorem frameOpen_eq : s.mlc.frameOpen = false := by
  have hmlc : s.mlc = powerOnMlc := congrArg State.mlc h.values
  rw [hmlc]
  rfl

/-! The bus sides: no request is accepted, and the queue and the memory side have nothing to move. -/

theorem canAccept_eq : s.canAccept = false := by simp [State.canAccept, h.asserted]
theorem onlyPinsMove_acceptOrHold (o : Offer) : onlyPinsMove s (acceptOrHold o s) := by
  rw [acceptOrHold, h.canAccept_eq]
  rfl
theorem onlyPinsMove_offer (o : Offer) : onlyPinsMove s (offer o s) := by
  unfold offer
  split
  · exact h.onlyPinsMove_acceptOrHold o
  · split
    · exact h.onlyPinsMove_acceptOrHold o
    · rw [h.canAccept_eq]
      rfl
theorem onlyPinsMove_acceptHeldOffer : onlyPinsMove s (acceptHeldOffer s) := by
  unfold acceptHeldOffer
  split
  · exact onlyPinsMove_refl s
  · exact h.onlyPinsMove_acceptOrHold _
theorem issueOldest_eq : issueOldest s = s := by simp [issueOldest, State.oldestDecided, h.slots_eq]
theorem acceptAccess_eq : acceptAccess s = s := by simp [acceptAccess, h.msi_eq]
theorem takeAnswer_eq (tag : SlotNo) (st : Answer) (d : Word) : takeAnswer tag st d s = s := by
  simp [takeAnswer, h.msi_eq]
theorem takeResponse_eq : takeResponse s = s := by simp [takeResponse, h.slots_eq]
theorem onlyPinsMove_processorReset : onlyPinsMove s (drain (rearmEntries (s.setPrst true))) := by
  rw [rearmEntries_of_not_supervise (s := s.setPrst true) h.not_supervise]
  have hdrain : (drain (s.setPrst true)).transit = s.transit := by
    simp [drain, drainSlots, State.setPrst, h.transit_eq]
  exact congrArg (fun x => { s.setPrst true with transit := x }) hdrain

/-! The link: a frame that begins is ignored whole, and no edge and no command is taken (R177, R192). -/

theorem closed_mlc_eq : { s.mlc with frameOpen := false } = s.mlc := by rw [← h.frameOpen_eq]
theorem onlyPinsMove_endFrame : onlyPinsMove s (endFrame s) := by
  rw [endFrame, h.closed_mlc_eq]
  rfl
theorem beginFrame_eq : beginFrame s = { s with pins := { s.pins with csLow := true } } := by
  rw [beginFrame, if_pos h.asserted, h.closed_mlc_eq]
theorem clockIn_eq (b : Bool) : clockIn b s = s := by simp [clockIn, h.frameOpen_eq]
theorem clockOut_eq : clockOut s = s := by simp [clockOut, h.frameOpen_eq, h.asserted]
theorem shiftBits_eq (bits : List Bool) : shiftBits bits s = s := by
  unfold shiftBits
  induction bits with
  | nil => rfl
  | cons b bits ih => rw [List.foldl_cons, h.clockIn_eq, h.clockOut_eq, ih]
theorem onlyPinsMove_riseOnBadFrame : onlyPinsMove s (riseOnBadFrame s) := by
  rw [riseOnBadFrame, h.frameOpen_eq]
  exact h.onlyPinsMove_endFrame
/-- With CS_N low the same holds. -/
theorem with_csLow : State.heldAtPowerOn { s with pins := { s.pins with csLow := true } } where
  asserted := h.asserted
  values := onlyPinsMove.powerOnValues (s := s) rfl h.values
theorem onlyPinsMove_takeBadFrame (bits : List Bool) : onlyPinsMove s (takeBadFrame bits s) := by
  have hignored : shiftBits bits (beginFrame s) = { s with pins := { s.pins with csLow := true } } := by
    rw [h.beginFrame_eq, h.with_csLow.shiftBits_eq]
  unfold takeBadFrame
  rw [hignored]
  split
  · exact h.onlyPinsMove_riseOnBadFrame
  · dsimp only
    split
    · exact onlyPinsMove_refl s
    · exact h.with_csLow.onlyPinsMove_riseOnBadFrame
theorem onlyPinsMove_takeFrame (fits : Byte → Byte → Bool) (run : Byte → Byte → Bytes8 → State → State)
    (code sel : Byte) (arg : Bytes8) : onlyPinsMove s (takeFrame fits run code sel arg s) := by
  rw [takeFrame, h.frameOpen_eq, h.asserted]
  split
  · exact h.onlyPinsMove_endFrame
  · exact onlyPinsMove_refl s

end State.heldAtPowerOn

/-- While PORST_N is asserted every command moves pins alone (R193). -/
theorem onlyPinsMove_exec {i : Instr} {s t : State} (h : s.heldAtPowerOn) (hx : exec i s = .next t) :
    onlyPinsMove s t := by
  have next : ∀ {u : State}, (.next u : Result) = .next t → onlyPinsMove s u → onlyPinsMove s t :=
    fun e hu => by cases e; exact hu
  have event : ∀ {c : Bool} {f : State → State}, (.next (onlyIf c f s) : Result) = .next t → f s = s →
      onlyPinsMove s t := fun e hf => next e (by rw [onlyIf_of_fixed hf]; exact onlyPinsMove_refl s)
  have notDue : ∀ {c : Bool} {f : State → State}, (.next (onlyIf c f s) : Result) = .next t → c = false →
      onlyPinsMove s t := fun e hc => next e (by rw [hc]; exact onlyPinsMove_refl s)
  cases i with
  | writeArrival ini tag addr lanes data => exact next hx (h.onlyPinsMove_offer _)
  | readArrival ini tag addr => exact next hx (h.onlyPinsMove_offer _)
  | slotIssue => exact event hx h.issueOldest_eq
  | memoryAccept => exact event hx h.acceptAccess_eq
  | memoryAnswer tag st d => exact event hx (h.takeAnswer_eq tag st d)
  | responseTaken => exact event hx h.takeResponse_eq
  | processorSideReset => exact next hx (Keeps.onlyIf _ (onlyPinsMove_refl s) fun _ => h.onlyPinsMove_processorReset)
  | prstNRelease => exact next hx rfl
  | powerOnReset => exact next hx (by rw [← h.values]; rfl)
  | porstNRelease => exact next hx rfl
  | tick n => exact notDue hx (by rw [h.asserted]; rfl)
  | armingExpiry k =>
    obtain ⟨ha, -, -, -⟩ := noneDue_of_not_supervise h.not_supervise k
    exact notDue hx ha
  | closedWindowEnd k =>
    obtain ⟨-, hc, -, -⟩ := noneDue_of_not_supervise h.not_supervise k
    exact notDue hx hc
  | openWindowExpiry k =>
    obtain ⟨-, -, ho, -⟩ := noneDue_of_not_supervise h.not_supervise k
    exact notDue hx ho
  | stalePeriodExpiry k =>
    obtain ⟨-, -, -, hs⟩ := noneDue_of_not_supervise h.not_supervise k
    exact notDue hx hs
  | frameStart => exact next hx (Keeps.onlyIf _ (onlyPinsMove_refl s) fun _ => by rw [h.beginFrame_eq]; rfl)
  | badFrame bits => exact next hx (h.onlyPinsMove_takeBadFrame bits)
  | sckRisingEdge b => exact next hx (by rw [h.clockIn_eq]; exact onlyPinsMove_refl s)
  | sckFallingEdge => exact next hx (by rw [h.clockOut_eq]; exact onlyPinsMove_refl s)
  -- every other row is a command frame, which `takeFrame` takes
  | _ => exact next hx (h.onlyPinsMove_takeFrame _ _ _ _ _)

/-! ### The law of PORST_N -/

/-- The law is kept where PORST_N stays released, and where nothing but pins moves while it is asserted. -/
theorem PorstLaw.of_change {s t : State} (h : PorstLaw s) (released : s.pins.porst = false → t.pins.porst = false)
    (held : s.heldAtPowerOn → onlyPinsMove s t) : PorstLaw t := by
  intro ht
  cases hp : s.pins.porst with
  | false =>
    rw [released hp] at ht
    cases ht
  | true => exact (held ⟨hp, h hp⟩).powerOnValues (h hp)

/-- Every command keeps the law: POWER_ON_RESET brings the power-on values, PORST_N_RELEASE releases the pin, and the
others leave it. -/
theorem porstLaw_exec {i : Instr} {s t : State} (h : PorstLaw s) (hx : exec i s = .next t) : PorstLaw t := by
  by_cases hassert : i = .powerOnReset
  · subst hassert
    cases hx
    exact fun _ => rfl
  · refine h.of_change (fun hp => ?_) fun held => onlyPinsMove_exec held hx
    by_cases hrelease : i = .porstNRelease
    · subst hrelease
      cases hx
      rfl
    · rw [porst_exec hassert hrelease hx, hp]

/-- Settles O60: while PORST_N is asserted a step moves pins alone, and only POWER_ON_RESET asserts it. -/
theorem stepKeepsPowerOnValues : Obligations.StepKeepsPowerOnValues := by
  intro s t h hx
  unfold step at hx
  split at hx
  · rename_i i rest _
    have hrest : PorstLaw { s with pending := rest } := fun hp => congrArg (fun u => { u with pending := rest }) (h hp)
    exact porstLaw_exec hrest hx
  · cases hx
    exact h.of_change (fun hp => (porst_acceptHeldOffer s).trans hp) fun held => held.onlyPinsMove_acceptHeldOffer

end Sys2Proof.Machine

/-! PROOF. The step of the machine on a queue that holds a command. -/
namespace Sys2Proof.Machine

/-- Settles O1: of the two branches of `step` on the queue, a command in front selects the one that runs it. -/
theorem stepRunsTheFrontCommand : Obligations.StepRunsTheFrontCommand := by
  intro s c rest hp
  rw [step, hp]

end Sys2Proof.Machine
